-- ==== Sys2Proof/Word.lean ====
section
/-! DEFINITION. The word types of the machine (spec/00_scope.md R6, R8): a byte is 8 bits, a word 16. -/

namespace Sys2Proof

/-- 8 bits: a register, a memory byte, a port number, an I/O byte (R6). -/
abbrev Byte := BitVec 8

/-- 16 bits: an address, a register pair, the program counter, the stack pointer (R6). -/
abbrev Word := BitVec 16

end Sys2Proof
end

