-- ==== Sys2Proof/Config.lean ====
section
/-! DEFINITION. What the spec leaves to the builder of a model: the named parameters of spec/00_scope.md R7,
and the free values (the answers of a device that belongs to the platform, 93_implementation_defined.md U3). -/

namespace Sys2Proof

/-- The parameter `SUB_AUX_MODE` (R7, D8): the auxiliary carry after subtract, compare and decrement. -/
inductive SubAuxMode where
  /-- AC is the carry out of bit 3 of the addition of the complement (R35, the default). -/
  | i8080
  /-- AC is the borrow out of the low nibble (R35). -/
  | borrow
  deriving DecidableEq, Repr

/-- The parameters of R7, fixed for a machine: no instruction writes them. They stand in `State` as plain
data, so that a statement about every state holds for every value of them (log 1, 2, 3).
`cycles` and `extraTaken` list where `CYCLES` and `EXTRA_TAKEN` differ from the default tables of R108. -/
structure Config where
  /-- `STACK_HI_AT_SP` (D5): true puts the high byte of a pushed word at `sp`. -/
  stackHiAtSp : Bool
  /-- `SUB_AUX_MODE` (D8). -/
  subAuxMode : SubAuxMode
  /-- `CYCLES` (D13), by opcode byte, where it is not the default. -/
  cycles : List (Byte × Nat)
  /-- `EXTRA_TAKEN` (D13), by opcode byte, where it is not the default. -/
  extraTaken : List (Byte × Nat)
  deriving DecidableEq, Repr

/-- The default of every parameter (R7). -/
def Config.default : Config :=
  { stackHiAtSp := true, subAuxMode := .i8080, cycles := [], extraTaken := [] }

/-- FREE VALUE (log 6): what a memory device of the platform answers to the `n`-th bus transaction when that
is a read of an address (U3: "a read is `any value` the device chooses"). -/
opaque Config.memAnswer : Nat → Word → Byte

/-- FREE VALUE (log 7): what an I/O device of the platform answers to the `n`-th bus transaction when that
is a read of a port (R240: "whatever the device answers and may differ on each read"). -/
opaque Config.portAnswer : Nat → Byte → Byte

end Sys2Proof
end

