-- ==== Sys2Proof/Syntax.lean ====
section
/-! DEFINITION. The instructions, whole: one constructor per instruction of spec/opcode_table.json and form of
its rule. The register, pair and condition fields are names, so that a field the encoding does not have (a
`MOV M,M`, a `LDAX H`, a `PUSH SP`) cannot be written. -/

namespace Sys2Proof

/-- The seven general registers (R22). -/
inductive Reg where
  | b | c | d | e | h | l | a
  deriving DecidableEq, Repr

/-- The operand of a register field: a register or `M`, the byte at the address in HL (R26, R93). -/
inductive Operand8 where
  | reg (r : Reg)
  | m
  deriving DecidableEq, Repr

/-- The three register pairs (R24), the operand of PUSH and POP. -/
inductive Pair where
  | bc | de | hl
  deriving DecidableEq, Repr

/-- The operand of LXI, DAD, INX and DCX: a pair or the stack pointer (R94). -/
inductive Rp where
  | bc | de | hl | sp
  deriving DecidableEq, Repr

/-- The operand of LDAX and STAX: BC or DE only (R94, R130). -/
inductive IndPair where
  | bc | de
  deriving DecidableEq, Repr

/-- The eight conditions of Jcc, Ccc and Rcc (R95). -/
inductive Cond where
  | nz | z | nc | c | po | pe | p | m
  deriving DecidableEq, Repr

/-- The five addressing modes (R100). -/
inductive Mode where
  | implied | imm8 | imm16 | hlInd | direct
  deriving DecidableEq, Repr

/-- One constructor per instruction. `nopDup`, `jmpDup`, `retDup` and `callDup` are the twelve undocumented
opcode values of R109; the number they carry tells the values of one instruction apart (log 15). -/
inductive Instr where
  -- data transfer, spec/40_data_transfer.md
  | movRR (dst src : Reg)
  | movRM (dst : Reg)
  | movMR (src : Reg)
  | mviR (dst : Reg) (d8 : Byte)
  | mviM (d8 : Byte)
  | lxi (pr : Rp) (d16 : Word)
  | lda (a16 : Word)
  | sta (a16 : Word)
  | lhld (a16 : Word)
  | shld (a16 : Word)
  | ldax (pr : IndPair)
  | stax (pr : IndPair)
  | xchg
  -- stack, spec/41_stack.md
  | push (pr : Pair)
  | pushPsw
  | pop (pr : Pair)
  | popPsw
  | xthl
  | sphl
  -- control transfer, spec/42_control_transfer.md
  | jmp (a16 : Word)
  | jmpDup (a16 : Word)
  | jnz (a16 : Word)
  | jz (a16 : Word)
  | jnc (a16 : Word)
  | jc (a16 : Word)
  | jpo (a16 : Word)
  | jpe (a16 : Word)
  | jp (a16 : Word)
  | jm (a16 : Word)
  | call (a16 : Word)
  | callDup (p : BitVec 2) (a16 : Word)
  | cnz (a16 : Word)
  | cz (a16 : Word)
  | cnc (a16 : Word)
  | cc (a16 : Word)
  | cpo (a16 : Word)
  | cpe (a16 : Word)
  | cp (a16 : Word)
  | cm (a16 : Word)
  | ret
  | retDup
  | rnz
  | rz
  | rnc
  | rc
  | rpo
  | rpe
  | rp
  | rm
  | rst (n : BitVec 3)
  | pchl
  -- increment and decrement, spec/43_inc_dec.md
  | inrR (r : Reg)
  | inrM
  | dcrR (r : Reg)
  | dcrM
  | inx (pr : Rp)
  | dcx (pr : Rp)
  -- arithmetic, spec/44_arithmetic.md
  | add (src : Operand8)
  | adc (src : Operand8)
  | sub (src : Operand8)
  | sbb (src : Operand8)
  | adi (d8 : Byte)
  | aci (d8 : Byte)
  | sui (d8 : Byte)
  | sbi (d8 : Byte)
  | dad (pr : Rp)
  -- logic and compare, spec/45_logical.md
  | ana (src : Operand8)
  | xra (src : Operand8)
  | ora (src : Operand8)
  | cmp (src : Operand8)
  | ani (d8 : Byte)
  | xri (d8 : Byte)
  | ori (d8 : Byte)
  | cpi (d8 : Byte)
  -- rotate, spec/46_rotate.md
  | rlc
  | rrc
  | ral
  | rar
  -- special, spec/47_special.md
  | cma
  | stc
  | cmc
  | daa
  -- input and output, spec/48_io.md
  | inp (p8 : Byte)
  | out (p8 : Byte)
  -- machine control, spec/49_control.md
  | ei
  | di
  | nop
  | nopDup (n : BitVec 3)
  | hlt
  deriving DecidableEq, Repr

end Sys2Proof
end

