-- ==== Sys2Proof/WellFormed.lean ====
section
/-! DEFINITION. Which instruction terms stand for an encoding of spec/30_encoding.md. Register, pair and
condition fields are well formed by their type; what is left to check is that a duplicate's number is one of
the undocumented values of R109 and not the documented opcode. -/

namespace Sys2Proof

/-- True of exactly the terms that `encode` takes to their own encoding: `00 NNN 000` is an undocumented NOP
only for `NNN` not 0 (R249), `11 pp1 101` an undocumented CALL only for `pp` not 0 (R162, R111). -/
def Instr.wf : Instr → Bool
  | .movRR _ _ => true
  | .movRM _ => true
  | .movMR _ => true
  | .mviR _ _ => true
  | .mviM _ => true
  | .lxi _ _ => true
  | .lda _ => true
  | .sta _ => true
  | .lhld _ => true
  | .shld _ => true
  | .ldax _ => true
  | .stax _ => true
  | .xchg => true
  | .push _ => true
  | .pushPsw => true
  | .pop _ => true
  | .popPsw => true
  | .xthl => true
  | .sphl => true
  | .jmp _ => true
  | .jmpDup _ => true
  | .jnz _ => true
  | .jz _ => true
  | .jnc _ => true
  | .jc _ => true
  | .jpo _ => true
  | .jpe _ => true
  | .jp _ => true
  | .jm _ => true
  | .call _ => true
  | .callDup p _ => p != 0#2
  | .cnz _ => true
  | .cz _ => true
  | .cnc _ => true
  | .cc _ => true
  | .cpo _ => true
  | .cpe _ => true
  | .cp _ => true
  | .cm _ => true
  | .ret => true
  | .retDup => true
  | .rnz => true
  | .rz => true
  | .rnc => true
  | .rc => true
  | .rpo => true
  | .rpe => true
  | .rp => true
  | .rm => true
  | .rst _ => true
  | .pchl => true
  | .inrR _ => true
  | .inrM => true
  | .dcrR _ => true
  | .dcrM => true
  | .inx _ => true
  | .dcx _ => true
  | .add _ => true
  | .adc _ => true
  | .sub _ => true
  | .sbb _ => true
  | .adi _ => true
  | .aci _ => true
  | .sui _ => true
  | .sbi _ => true
  | .dad _ => true
  | .ana _ => true
  | .xra _ => true
  | .ora _ => true
  | .cmp _ => true
  | .ani _ => true
  | .xri _ => true
  | .ori _ => true
  | .cpi _ => true
  | .rlc => true
  | .rrc => true
  | .ral => true
  | .rar => true
  | .cma => true
  | .stc => true
  | .cmc => true
  | .daa => true
  | .inp _ => true
  | .out _ => true
  | .ei => true
  | .di => true
  | .nop => true
  | .nopDup n => n != 0#3
  | .hlt => true

end Sys2Proof
end

