-- ==== Sys2Proof/Decode.lean ====
section
/-! DEFINITION. The decoder of spec/30_encoding.md (R90 to R98, R107, R109, R111), total on every byte, and
after it the encoder, written from the same field tables. The opcode values are the spec's own, from general
knowledge (G1, log 17). -/

namespace Sys2Proof

/-! ## Bytes and words (R8, R98) -/

/-- `{hi, lo}` (R8). -/
def mkWord (hi lo : Byte) : Word := hi ++ lo

/-- `w[15:8]`. -/
def hiByte (w : Word) : Byte := w.extractLsb' 8 8

/-- `w[7:0]`. -/
def loByte (w : Word) : Byte := w.extractLsb' 0 8

/-! ## The fields of the opcode byte (R91) -/

/-- `op[7:6]`, the group. -/
def opGroup (op : Byte) : BitVec 2 := op.extractLsb' 6 2

/-- `op[5:3]`: DDD, CCC, AAA or NNN. -/
def opMid (op : Byte) : BitVec 3 := op.extractLsb' 3 3

/-- `op[2:0]`: SSS or the sub-opcode of groups 00 and 11. -/
def opLow (op : Byte) : BitVec 3 := op.extractLsb' 0 3

/-- `op[5:4]`: RP. -/
def opRp (op : Byte) : BitVec 2 := op.extractLsb' 4 2

/-- `op[3]`, the selector beside RP. -/
def opSel (op : Byte) : Bool := op.getLsbD 3

/-! ## The code tables, read (R93 to R95) -/

/-- 8-bit register codes: B C D E H L M A (R93). -/
def operand8OfCode (c : BitVec 3) : Operand8 :=
  match c.toNat with
  | 0 => .reg .b
  | 1 => .reg .c
  | 2 => .reg .d
  | 3 => .reg .e
  | 4 => .reg .h
  | 5 => .reg .l
  | 6 => .m
  | _ => .reg .a

/-- Register-pair codes of LXI, DAD, INX, DCX: BC DE HL SP (R94). -/
def rpOfCode (c : BitVec 2) : Rp :=
  match c.toNat with
  | 0 => .bc
  | 1 => .de
  | 2 => .hl
  | _ => .sp

/-- Register-pair codes of PUSH and POP; code 3 is PSW, no pair (R94). -/
def pairOfCode (c : BitVec 2) : Option Pair :=
  match c.toNat with
  | 0 => some .bc
  | 1 => some .de
  | 2 => some .hl
  | _ => none

/-! ## The decode tree (R111) -/

/-- Group 00. -/
def decodeGroup0 (op d8 : Byte) (d16 : Word) : Instr :=
  match (opLow op).toNat with
  | 0 => if opMid op = 0#3 then .nop else .nopDup (opMid op)
  | 1 => if opSel op then .dad (rpOfCode (opRp op)) else .lxi (rpOfCode (opRp op)) d16
  | 2 =>
    match (opMid op).toNat with
    | 0 => .stax .bc
    | 1 => .ldax .bc
    | 2 => .stax .de
    | 3 => .ldax .de
    | 4 => .shld d16
    | 5 => .lhld d16
    | 6 => .sta d16
    | _ => .lda d16
  | 3 => if opSel op then .dcx (rpOfCode (opRp op)) else .inx (rpOfCode (opRp op))
  | 4 =>
    match operand8OfCode (opMid op) with
    | .reg r => .inrR r
    | .m => .inrM
  | 5 =>
    match operand8OfCode (opMid op) with
    | .reg r => .dcrR r
    | .m => .dcrM
  | 6 =>
    match operand8OfCode (opMid op) with
    | .reg r => .mviR r d8
    | .m => .mviM d8
  | _ =>
    match (opMid op).toNat with
    | 0 => .rlc
    | 1 => .rrc
    | 2 => .ral
    | 3 => .rar
    | 4 => .daa
    | 5 => .cma
    | 6 => .stc
    | _ => .cmc

/-- Group 01: MOV, and HLT where `MOV M,M` would be (R248). -/
def decodeGroup1 (op : Byte) : Instr :=
  match operand8OfCode (opMid op), operand8OfCode (opLow op) with
  | .reg dst, .reg src => .movRR dst src
  | .reg dst, .m => .movRM dst
  | .m, .reg src => .movMR src
  | .m, .m => .hlt

/-- Group 10: the accumulator operations (R96). -/
def decodeGroup2 (op : Byte) : Instr :=
  let src := operand8OfCode (opLow op)
  match (opMid op).toNat with
  | 0 => .add src
  | 1 => .adc src
  | 2 => .sub src
  | 3 => .sbb src
  | 4 => .ana src
  | 5 => .xra src
  | 6 => .ora src
  | _ => .cmp src

/-- Group 11. -/
def decodeGroup3 (op d8 : Byte) (d16 : Word) : Instr :=
  match (opLow op).toNat with
  | 0 =>
    match (opMid op).toNat with
    | 0 => .rnz
    | 1 => .rz
    | 2 => .rnc
    | 3 => .rc
    | 4 => .rpo
    | 5 => .rpe
    | 6 => .rp
    | _ => .rm
  | 1 =>
    if opSel op then
      match (opRp op).toNat with
      | 0 => .ret
      | 1 => .retDup
      | 2 => .pchl
      | _ => .sphl
    else
      match pairOfCode (opRp op) with
      | some p => .pop p
      | none => .popPsw
  | 2 =>
    match (opMid op).toNat with
    | 0 => .jnz d16
    | 1 => .jz d16
    | 2 => .jnc d16
    | 3 => .jc d16
    | 4 => .jpo d16
    | 5 => .jpe d16
    | 6 => .jp d16
    | _ => .jm d16
  | 3 =>
    match (opMid op).toNat with
    | 0 => .jmp d16
    | 1 => .jmpDup d16
    | 2 => .out d8
    | 3 => .inp d8
    | 4 => .xthl
    | 5 => .xchg
    | 6 => .di
    | _ => .ei
  | 4 =>
    match (opMid op).toNat with
    | 0 => .cnz d16
    | 1 => .cz d16
    | 2 => .cnc d16
    | 3 => .cc d16
    | 4 => .cpo d16
    | 5 => .cpe d16
    | 6 => .cp d16
    | _ => .cm d16
  | 5 =>
    if opSel op then
      if opRp op = 0#2 then .call d16 else .callDup (opRp op) d16
    else
      match pairOfCode (opRp op) with
      | some p => .push p
      | none => .pushPsw
  | 6 =>
    match (opMid op).toNat with
    | 0 => .adi d8
    | 1 => .aci d8
    | 2 => .sui d8
    | 3 => .sbi d8
    | 4 => .ani d8
    | 5 => .xri d8
    | 6 => .ori d8
    | _ => .cpi d8
  | _ => .rst (opMid op)

/-- The instruction of an opcode byte and the two bytes after it, of which an instruction shorter than three
bytes uses fewer: a total function (R107, R109). `d8 = b2`, `d16 = a16 = {b3, b2}` (R13, R98). -/
def decodeOp (op b2 b3 : Byte) : Instr :=
  match (opGroup op).toNat with
  | 0 => decodeGroup0 op b2 (mkWord b3 b2)
  | 1 => decodeGroup1 op
  | 2 => decodeGroup2 op
  | _ => decodeGroup3 op b2 (mkWord b3 b2)

/-! ## Mode, length, mnemonic (R90, R92, R106, R112) -/

/-- A register operand is of mode NONE, `M` of mode HL_IND (R101, R104). -/
def Operand8.mode : Operand8 → Mode
  | .reg _ => .implied
  | .m => .hlInd

/-- The addressing mode of an instruction (R101 to R106). -/
def Instr.mode : Instr → Mode
  | .movRR _ _ => .implied
  | .movRM _ => .hlInd
  | .movMR _ => .hlInd
  | .mviR _ _ => .imm8
  | .mviM _ => .imm8
  | .lxi _ _ => .imm16
  | .lda _ => .direct
  | .sta _ => .direct
  | .lhld _ => .direct
  | .shld _ => .direct
  | .ldax _ => .implied
  | .stax _ => .implied
  | .xchg => .implied
  | .push _ => .implied
  | .pushPsw => .implied
  | .pop _ => .implied
  | .popPsw => .implied
  | .xthl => .implied
  | .sphl => .implied
  | .jmp _ => .imm16
  | .jmpDup _ => .imm16
  | .jnz _ => .imm16
  | .jz _ => .imm16
  | .jnc _ => .imm16
  | .jc _ => .imm16
  | .jpo _ => .imm16
  | .jpe _ => .imm16
  | .jp _ => .imm16
  | .jm _ => .imm16
  | .call _ => .imm16
  | .callDup _ _ => .imm16
  | .cnz _ => .imm16
  | .cz _ => .imm16
  | .cnc _ => .imm16
  | .cc _ => .imm16
  | .cpo _ => .imm16
  | .cpe _ => .imm16
  | .cp _ => .imm16
  | .cm _ => .imm16
  | .ret => .implied
  | .retDup => .implied
  | .rnz => .implied
  | .rz => .implied
  | .rnc => .implied
  | .rc => .implied
  | .rpo => .implied
  | .rpe => .implied
  | .rp => .implied
  | .rm => .implied
  | .rst _ => .implied
  | .pchl => .implied
  | .inrR _ => .implied
  | .inrM => .hlInd
  | .dcrR _ => .implied
  | .dcrM => .hlInd
  | .inx _ => .implied
  | .dcx _ => .implied
  | .add src => src.mode
  | .adc src => src.mode
  | .sub src => src.mode
  | .sbb src => src.mode
  | .adi _ => .imm8
  | .aci _ => .imm8
  | .sui _ => .imm8
  | .sbi _ => .imm8
  | .dad _ => .implied
  | .ana src => src.mode
  | .xra src => src.mode
  | .ora src => src.mode
  | .cmp src => src.mode
  | .ani _ => .imm8
  | .xri _ => .imm8
  | .ori _ => .imm8
  | .cpi _ => .imm8
  | .rlc => .implied
  | .rrc => .implied
  | .ral => .implied
  | .rar => .implied
  | .cma => .implied
  | .stc => .implied
  | .cmc => .implied
  | .daa => .implied
  | .inp _ => .imm8
  | .out _ => .imm8
  | .ei => .implied
  | .di => .implied
  | .nop => .implied
  | .nopDup _ => .implied
  | .hlt => .implied

/-- Bytes of an instruction of a mode, the opcode included (R90; C2 for HL_IND). -/
def Mode.length : Mode → Nat
  | .implied => 1
  | .imm8 => 2
  | .imm16 => 3
  | .hlInd => 1
  | .direct => 3

/-- The length of an instruction in bytes (R90). -/
def Instr.length (i : Instr) : Nat := i.mode.length

/-- The length the decoder reads from the opcode byte alone, `LEN[op]` (R92, R107). -/
def opLength (op : Byte) : Nat := (decodeOp op 0#8 0#8).length

/-- The mnemonic (R107, R112). -/
def Instr.mnemonic : Instr → String
  | .movRR _ _ => "MOV"
  | .movRM _ => "MOV"
  | .movMR _ => "MOV"
  | .mviR _ _ => "MVI"
  | .mviM _ => "MVI"
  | .lxi _ _ => "LXI"
  | .lda _ => "LDA"
  | .sta _ => "STA"
  | .lhld _ => "LHLD"
  | .shld _ => "SHLD"
  | .ldax _ => "LDAX"
  | .stax _ => "STAX"
  | .xchg => "XCHG"
  | .push _ => "PUSH"
  | .pushPsw => "PUSH"
  | .pop _ => "POP"
  | .popPsw => "POP"
  | .xthl => "XTHL"
  | .sphl => "SPHL"
  | .jmp _ => "JMP"
  | .jmpDup _ => "JMP"
  | .jnz _ => "JNZ"
  | .jz _ => "JZ"
  | .jnc _ => "JNC"
  | .jc _ => "JC"
  | .jpo _ => "JPO"
  | .jpe _ => "JPE"
  | .jp _ => "JP"
  | .jm _ => "JM"
  | .call _ => "CALL"
  | .callDup _ _ => "CALL"
  | .cnz _ => "CNZ"
  | .cz _ => "CZ"
  | .cnc _ => "CNC"
  | .cc _ => "CC"
  | .cpo _ => "CPO"
  | .cpe _ => "CPE"
  | .cp _ => "CP"
  | .cm _ => "CM"
  | .ret => "RET"
  | .retDup => "RET"
  | .rnz => "RNZ"
  | .rz => "RZ"
  | .rnc => "RNC"
  | .rc => "RC"
  | .rpo => "RPO"
  | .rpe => "RPE"
  | .rp => "RP"
  | .rm => "RM"
  | .rst _ => "RST"
  | .pchl => "PCHL"
  | .inrR _ => "INR"
  | .inrM => "INR"
  | .dcrR _ => "DCR"
  | .dcrM => "DCR"
  | .inx _ => "INX"
  | .dcx _ => "DCX"
  | .add _ => "ADD"
  | .adc _ => "ADC"
  | .sub _ => "SUB"
  | .sbb _ => "SBB"
  | .adi _ => "ADI"
  | .aci _ => "ACI"
  | .sui _ => "SUI"
  | .sbi _ => "SBI"
  | .dad _ => "DAD"
  | .ana _ => "ANA"
  | .xra _ => "XRA"
  | .ora _ => "ORA"
  | .cmp _ => "CMP"
  | .ani _ => "ANI"
  | .xri _ => "XRI"
  | .ori _ => "ORI"
  | .cpi _ => "CPI"
  | .rlc => "RLC"
  | .rrc => "RRC"
  | .ral => "RAL"
  | .rar => "RAR"
  | .cma => "CMA"
  | .stc => "STC"
  | .cmc => "CMC"
  | .daa => "DAA"
  | .inp _ => "IN"
  | .out _ => "OUT"
  | .ei => "EI"
  | .di => "DI"
  | .nop => "NOP"
  | .nopDup _ => "NOP"
  | .hlt => "HLT"

/-! ## Decoding a byte string -/

/-- Why a byte string is no instruction: it ends before the instruction does. No opcode is illegal (R109). -/
inductive DecodeError where
  /-- there is no opcode byte. -/
  | noOpcode
  /-- the string ends inside the instruction of this opcode. -/
  | truncated (op : Byte)
  deriving DecidableEq, Repr

/-- The first instruction of a byte string and the bytes after it (R90, R92). -/
def decode : List Byte → Except DecodeError (Instr × List Byte)
  | [] => .error .noOpcode
  | op :: rest =>
    match opLength op, rest with
    | 1, _ => .ok (decodeOp op 0#8 0#8, rest)
    | 2, b2 :: rest' => .ok (decodeOp op b2 0#8, rest')
    | 3, b2 :: b3 :: rest' => .ok (decodeOp op b2 b3, rest')
    | _, _ => .error (.truncated op)

/-- The three bytes of a word numbered as the opcode table numbers it: the opcode in bits 7..0, the second
byte in bits 15..8, the third in bits 23..16; bits from `nbits` up are 0. -/
def tableBytes (nbits w : Nat) : List Byte :=
  let v := w % 2 ^ nbits
  [BitVec.ofNat 8 v, BitVec.ofNat 8 (v / 256), BitVec.ofNat 8 (v / 65536)]

/-- The instruction the decoder reads from a word of the opcode table. -/
def decodeTableWord (nbits w : Nat) : Option Instr :=
  match decode (tableBytes nbits w) with
  | .ok (i, _) => some i
  | .error _ => none

/-! ## The encoder, from the same tables -/

/-- The code of a register (R93). -/
def Reg.code : Reg → BitVec 3
  | .b => 0#3
  | .c => 1#3
  | .d => 2#3
  | .e => 3#3
  | .h => 4#3
  | .l => 5#3
  | .a => 7#3

/-- The code of an 8-bit operand (R93). -/
def Operand8.code : Operand8 → BitVec 3
  | .reg r => r.code
  | .m => 6#3

/-- The code of a pair of PUSH and POP (R94). -/
def Pair.code : Pair → BitVec 2
  | .bc => 0#2
  | .de => 1#2
  | .hl => 2#2

/-- The code of a pair of LXI, DAD, INX and DCX (R94). -/
def Rp.code : Rp → BitVec 2
  | .bc => 0#2
  | .de => 1#2
  | .hl => 2#2
  | .sp => 3#2

/-- The code of a pair of LDAX and STAX (R94). -/
def IndPair.code : IndPair → BitVec 2
  | .bc => 0#2
  | .de => 1#2

/-- The code of a condition (R95). -/
def Cond.code : Cond → BitVec 3
  | .nz => 0#3
  | .z => 1#3
  | .nc => 2#3
  | .c => 3#3
  | .po => 4#3
  | .pe => 5#3
  | .p => 6#3
  | .m => 7#3

/-- An opcode byte from its three fields (R91). -/
def opByte (group : BitVec 2) (mid low : BitVec 3) : Byte := group ++ mid ++ low

/-- The opcode byte of an instruction (R111 and the encoding line of each instruction's rule). -/
def Instr.opcode : Instr → Byte
  | .movRR dst src => opByte 1#2 dst.code src.code
  | .movRM dst => opByte 1#2 dst.code 6#3
  | .movMR src => opByte 1#2 6#3 src.code
  | .mviR dst _ => opByte 0#2 dst.code 6#3
  | .mviM _ => opByte 0#2 6#3 6#3
  | .lxi pr _ => opByte 0#2 (pr.code ++ 0#1) 1#3
  | .lda _ => opByte 0#2 7#3 2#3
  | .sta _ => opByte 0#2 6#3 2#3
  | .lhld _ => opByte 0#2 5#3 2#3
  | .shld _ => opByte 0#2 4#3 2#3
  | .ldax pr => opByte 0#2 (pr.code ++ 1#1) 2#3
  | .stax pr => opByte 0#2 (pr.code ++ 0#1) 2#3
  | .xchg => opByte 3#2 5#3 3#3
  | .push pr => opByte 3#2 (pr.code ++ 0#1) 5#3
  | .pushPsw => opByte 3#2 6#3 5#3
  | .pop pr => opByte 3#2 (pr.code ++ 0#1) 1#3
  | .popPsw => opByte 3#2 6#3 1#3
  | .xthl => opByte 3#2 4#3 3#3
  | .sphl => opByte 3#2 7#3 1#3
  | .jmp _ => opByte 3#2 0#3 3#3
  | .jmpDup _ => opByte 3#2 1#3 3#3
  | .jnz _ => opByte 3#2 Cond.nz.code 2#3
  | .jz _ => opByte 3#2 Cond.z.code 2#3
  | .jnc _ => opByte 3#2 Cond.nc.code 2#3
  | .jc _ => opByte 3#2 Cond.c.code 2#3
  | .jpo _ => opByte 3#2 Cond.po.code 2#3
  | .jpe _ => opByte 3#2 Cond.pe.code 2#3
  | .jp _ => opByte 3#2 Cond.p.code 2#3
  | .jm _ => opByte 3#2 Cond.m.code 2#3
  | .call _ => opByte 3#2 1#3 5#3
  | .callDup p _ => opByte 3#2 (p ++ 1#1) 5#3
  | .cnz _ => opByte 3#2 Cond.nz.code 4#3
  | .cz _ => opByte 3#2 Cond.z.code 4#3
  | .cnc _ => opByte 3#2 Cond.nc.code 4#3
  | .cc _ => opByte 3#2 Cond.c.code 4#3
  | .cpo _ => opByte 3#2 Cond.po.code 4#3
  | .cpe _ => opByte 3#2 Cond.pe.code 4#3
  | .cp _ => opByte 3#2 Cond.p.code 4#3
  | .cm _ => opByte 3#2 Cond.m.code 4#3
  | .ret => opByte 3#2 1#3 1#3
  | .retDup => opByte 3#2 3#3 1#3
  | .rnz => opByte 3#2 Cond.nz.code 0#3
  | .rz => opByte 3#2 Cond.z.code 0#3
  | .rnc => opByte 3#2 Cond.nc.code 0#3
  | .rc => opByte 3#2 Cond.c.code 0#3
  | .rpo => opByte 3#2 Cond.po.code 0#3
  | .rpe => opByte 3#2 Cond.pe.code 0#3
  | .rp => opByte 3#2 Cond.p.code 0#3
  | .rm => opByte 3#2 Cond.m.code 0#3
  | .rst n => opByte 3#2 n 7#3
  | .pchl => opByte 3#2 5#3 1#3
  | .inrR r => opByte 0#2 r.code 4#3
  | .inrM => opByte 0#2 6#3 4#3
  | .dcrR r => opByte 0#2 r.code 5#3
  | .dcrM => opByte 0#2 6#3 5#3
  | .inx pr => opByte 0#2 (pr.code ++ 0#1) 3#3
  | .dcx pr => opByte 0#2 (pr.code ++ 1#1) 3#3
  | .add src => opByte 2#2 0#3 src.code
  | .adc src => opByte 2#2 1#3 src.code
  | .sub src => opByte 2#2 2#3 src.code
  | .sbb src => opByte 2#2 3#3 src.code
  | .adi _ => opByte 3#2 0#3 6#3
  | .aci _ => opByte 3#2 1#3 6#3
  | .sui _ => opByte 3#2 2#3 6#3
  | .sbi _ => opByte 3#2 3#3 6#3
  | .dad pr => opByte 0#2 (pr.code ++ 1#1) 1#3
  | .ana src => opByte 2#2 4#3 src.code
  | .xra src => opByte 2#2 5#3 src.code
  | .ora src => opByte 2#2 6#3 src.code
  | .cmp src => opByte 2#2 7#3 src.code
  | .ani _ => opByte 3#2 4#3 6#3
  | .xri _ => opByte 3#2 5#3 6#3
  | .ori _ => opByte 3#2 6#3 6#3
  | .cpi _ => opByte 3#2 7#3 6#3
  | .rlc => opByte 0#2 0#3 7#3
  | .rrc => opByte 0#2 1#3 7#3
  | .ral => opByte 0#2 2#3 7#3
  | .rar => opByte 0#2 3#3 7#3
  | .cma => opByte 0#2 5#3 7#3
  | .stc => opByte 0#2 6#3 7#3
  | .cmc => opByte 0#2 7#3 7#3
  | .daa => opByte 0#2 4#3 7#3
  | .inp _ => opByte 3#2 3#3 3#3
  | .out _ => opByte 3#2 2#3 3#3
  | .ei => opByte 3#2 7#3 3#3
  | .di => opByte 3#2 6#3 3#3
  | .nop => opByte 0#2 0#3 0#3
  | .nopDup n => opByte 0#2 n 0#3
  | .hlt => opByte 1#2 6#3 6#3

/-- The bytes after the opcode, low byte first (R90, R98). -/
def Instr.operandBytes : Instr → List Byte
  | .movRR _ _ => []
  | .movRM _ => []
  | .movMR _ => []
  | .mviR _ d8 => [d8]
  | .mviM d8 => [d8]
  | .lxi _ d16 => [loByte d16, hiByte d16]
  | .lda a16 => [loByte a16, hiByte a16]
  | .sta a16 => [loByte a16, hiByte a16]
  | .lhld a16 => [loByte a16, hiByte a16]
  | .shld a16 => [loByte a16, hiByte a16]
  | .ldax _ => []
  | .stax _ => []
  | .xchg => []
  | .push _ => []
  | .pushPsw => []
  | .pop _ => []
  | .popPsw => []
  | .xthl => []
  | .sphl => []
  | .jmp a16 => [loByte a16, hiByte a16]
  | .jmpDup a16 => [loByte a16, hiByte a16]
  | .jnz a16 => [loByte a16, hiByte a16]
  | .jz a16 => [loByte a16, hiByte a16]
  | .jnc a16 => [loByte a16, hiByte a16]
  | .jc a16 => [loByte a16, hiByte a16]
  | .jpo a16 => [loByte a16, hiByte a16]
  | .jpe a16 => [loByte a16, hiByte a16]
  | .jp a16 => [loByte a16, hiByte a16]
  | .jm a16 => [loByte a16, hiByte a16]
  | .call a16 => [loByte a16, hiByte a16]
  | .callDup _ a16 => [loByte a16, hiByte a16]
  | .cnz a16 => [loByte a16, hiByte a16]
  | .cz a16 => [loByte a16, hiByte a16]
  | .cnc a16 => [loByte a16, hiByte a16]
  | .cc a16 => [loByte a16, hiByte a16]
  | .cpo a16 => [loByte a16, hiByte a16]
  | .cpe a16 => [loByte a16, hiByte a16]
  | .cp a16 => [loByte a16, hiByte a16]
  | .cm a16 => [loByte a16, hiByte a16]
  | .ret => []
  | .retDup => []
  | .rnz => []
  | .rz => []
  | .rnc => []
  | .rc => []
  | .rpo => []
  | .rpe => []
  | .rp => []
  | .rm => []
  | .rst _ => []
  | .pchl => []
  | .inrR _ => []
  | .inrM => []
  | .dcrR _ => []
  | .dcrM => []
  | .inx _ => []
  | .dcx _ => []
  | .add _ => []
  | .adc _ => []
  | .sub _ => []
  | .sbb _ => []
  | .adi d8 => [d8]
  | .aci d8 => [d8]
  | .sui d8 => [d8]
  | .sbi d8 => [d8]
  | .dad _ => []
  | .ana _ => []
  | .xra _ => []
  | .ora _ => []
  | .cmp _ => []
  | .ani d8 => [d8]
  | .xri d8 => [d8]
  | .ori d8 => [d8]
  | .cpi d8 => [d8]
  | .rlc => []
  | .rrc => []
  | .ral => []
  | .rar => []
  | .cma => []
  | .stc => []
  | .cmc => []
  | .daa => []
  | .inp p8 => [p8]
  | .out p8 => [p8]
  | .ei => []
  | .di => []
  | .nop => []
  | .nopDup _ => []
  | .hlt => []

/-- The bytes of an instruction (R90). -/
def encode (i : Instr) : List Byte := i.opcode :: i.operandBytes

/-- The documented opcode an undocumented one duplicates; every other opcode is its own (R109). -/
def canonicalOpcode (op : Byte) : Byte :=
  match op.toNat with
  | 0x08 => 0x00#8
  | 0x10 => 0x00#8
  | 0x18 => 0x00#8
  | 0x20 => 0x00#8
  | 0x28 => 0x00#8
  | 0x30 => 0x00#8
  | 0x38 => 0x00#8
  | 0xCB => 0xC3#8
  | 0xD9 => 0xC9#8
  | 0xDD => 0xCD#8
  | 0xED => 0xCD#8
  | 0xFD => 0xCD#8
  | _ => op

end Sys2Proof
end

