-- ==== Sys2Proof/Machine/Cycles.lean ====
section
/-! DEFINITION. The opcode table's cycle counts (spec/30_encoding.md R108), the parameters `CYCLES` and
`EXTRA_TAKEN` over them, and the descriptor of an opcode (R2 c, R21, R107). -/

namespace Sys2Proof

/-- The grid of base cycle counts, one row per high digit (R108). -/
def cycleGrid : List (List Nat) :=
  [[4, 10, 7, 5, 5, 5, 7, 4, 4, 10, 7, 5, 5, 5, 7, 4],
   [4, 10, 7, 5, 5, 5, 7, 4, 4, 10, 7, 5, 5, 5, 7, 4],
   [4, 10, 16, 5, 5, 5, 7, 4, 4, 10, 16, 5, 5, 5, 7, 4],
   [4, 10, 13, 5, 10, 10, 10, 4, 4, 10, 13, 5, 5, 5, 7, 4],
   [5, 5, 5, 5, 5, 5, 7, 5, 5, 5, 5, 5, 5, 5, 7, 5],
   [5, 5, 5, 5, 5, 5, 7, 5, 5, 5, 5, 5, 5, 5, 7, 5],
   [5, 5, 5, 5, 5, 5, 7, 5, 5, 5, 5, 5, 5, 5, 7, 5],
   [7, 7, 7, 7, 7, 7, 7, 7, 5, 5, 5, 5, 5, 5, 7, 5]] ++
  [[4, 4, 4, 4, 4, 4, 7, 4, 4, 4, 4, 4, 4, 4, 7, 4],
   [4, 4, 4, 4, 4, 4, 7, 4, 4, 4, 4, 4, 4, 4, 7, 4],
   [4, 4, 4, 4, 4, 4, 7, 4, 4, 4, 4, 4, 4, 4, 7, 4],
   [4, 4, 4, 4, 4, 4, 7, 4, 4, 4, 4, 4, 4, 4, 7, 4],
   [5, 10, 10, 10, 11, 11, 7, 11, 5, 10, 10, 10, 11, 17, 7, 11],
   [5, 10, 10, 10, 11, 11, 7, 11, 5, 10, 10, 10, 11, 17, 7, 11],
   [5, 10, 10, 18, 11, 11, 7, 11, 5, 5, 10, 4, 11, 17, 7, 11],
   [5, 10, 10, 4, 11, 11, 7, 11, 5, 5, 10, 4, 11, 17, 7, 11]]

/-- The default of `CYCLES` (R7, R108). -/
def defaultCycles (op : Byte) : Nat :=
  (cycleGrid.getD (op.toNat / 16) []).getD (op.toNat % 16) 0

/-- The default of `EXTRA_TAKEN`: 6 for conditional call (`11 CCC 100`) and conditional return
(`11 CCC 000`) opcodes, 0 for every other (R7, R108). -/
def defaultExtra (op : Byte) : Nat :=
  if opGroup op = 3#2 ∧ (opLow op = 4#3 ∨ opLow op = 0#3) then 6 else 0

/-- `CYCLES[op]`. A duplicate opcode has the count of its canonical encoding (R109). -/
def Config.baseCycles (c : Config) (op : Byte) : Nat :=
  (c.cycles.lookup (canonicalOpcode op)).getD (defaultCycles (canonicalOpcode op))

/-- `EXTRA_TAKEN[op]`. -/
def Config.extraCycles (c : Config) (op : Byte) : Nat :=
  (c.extraTaken.lookup (canonicalOpcode op)).getD (defaultExtra (canonicalOpcode op))

/-- `CYCLES` is a function to the positive naturals (R7, R107, R312). -/
def Config.wf (c : Config) : Bool := c.cycles.all fun p => decide (0 < p.2)

/-- A descriptor of the opcode table: mnemonic, base cycle count, mode, operation (R2 c, R21). The operation
is the instruction with its operand bytes 0. -/
structure Descriptor where
  mnemonic : String
  base : Nat
  mode : Mode
  operation : Instr
  deriving DecidableEq, Repr

/-- The opcode table, a total function of the opcode byte (R21, R107). -/
def opTable (c : Config) (op : Byte) : Descriptor :=
  let i := decodeOp op 0#8 0#8
  { mnemonic := i.mnemonic, base := c.baseCycles op, mode := i.mode, operation := i }

end Sys2Proof
end

