-- ==== Sys2Proof/Machine/State.lean ====
section
/-! DEFINITION. The state, as plain data: the architectural state of spec/10_state.md R20, the devices and
parameters of spec/00_scope.md R7, the outputs of the last step (R303), and the index of the free values. -/

namespace Sys2Proof.Machine

/-! ## The parts -/

/-- The seven general registers (R22). -/
structure Regs where
  b : Byte
  c : Byte
  d : Byte
  e : Byte
  h : Byte
  l : Byte
  a : Byte
  deriving DecidableEq, Repr

/-- The five flags (R29). The status byte is assembled from them; R29 lets a model store either (log 13). -/
structure Flags where
  s : Bool
  z : Bool
  ac : Bool
  p : Bool
  cy : Bool
  deriving DecidableEq, Repr

/-- What stands behind an address of the memory bus (R63, R66, R76; log 4). -/
inductive MemKind where
  /-- no device: reads answer 0, writes are ignored (R66). -/
  | absent
  /-- reads answer the last byte written, writes are stored. -/
  | ram
  /-- reads answer the byte the host put there, writes are ignored (R63, U14). -/
  | rom
  /-- a device of the platform: reads answer a free value, what it does with a write is its affair (U3). -/
  | device
  deriving DecidableEq, Repr

/-- The addresses `first` to `last`, both included, are of one kind. -/
structure Region where
  first : Word
  last : Word
  kind : MemKind
  deriving DecidableEq, Repr

/-- The memory device: the kind of each address is that of the first region that holds it, else `rest`. -/
structure MemMap where
  rest : MemKind
  regions : List Region
  deriving DecidableEq, Repr

/-- The null device on the whole memory bus (R66). -/
def MemMap.null : MemMap := { rest := .absent, regions := [] }

/-- A RAM of 64 KiB (D20). -/
def MemMap.ram64k : MemMap := { rest := .ram, regions := [] }

/-- The contents of the memory device: address and byte, addresses rising, no entry equal to what an
unlisted address holds (Machine/Memory.lean). -/
abbrev Memory := List Host.Cell

/-- What stands behind a port (R66, R67; log 7). -/
inductive PortKind where
  /-- no device: reads answer 0, writes are ignored (R66). -/
  | absent
  /-- reads answer this byte, writes are recorded (D20). -/
  | fixed (v : Byte)
  /-- a device of the platform: reads answer a free value, writes are recorded (U3, R240). -/
  | device
  deriving DecidableEq, Repr

/-- The I/O device: the kind of each port is that of its first entry, else `rest`. -/
structure IoMap where
  rest : PortKind
  ports : List (Byte × PortKind)
  deriving DecidableEq, Repr

/-- The null device on the whole I/O bus (R66). -/
def IoMap.null : IoMap := { rest := .absent, ports := [] }

/-- One bus transaction, one byte wide (R72), with the byte that went over the bus. -/
inductive BusEvent where
  | memRead (a : Word) (v : Byte)
  | memWrite (a : Word) (v : Byte)
  | ioRead (p : Byte) (v : Byte)
  | ioWrite (p : Byte) (v : Byte)
  deriving DecidableEq, Repr

/-- The resolved addressing-mode operand, by mode (R303). -/
inductive Resolved where
  | nothing
  | imm8 (d8 : Byte)
  | imm16 (d16 : Word)
  | hlInd (ea : Word)
  | direct (ea : Word)
  deriving DecidableEq, Repr

/-- The outputs of the step just made (R303): the opcode byte fetched, the resolved operand, and the bus
transactions in their order (R73). No rule reads them (log 10). -/
structure StepOut where
  opcode : Option Byte
  operand : Resolved
  bus : List BusEvent
  deriving DecidableEq, Repr

/-- No step has been made (U12). -/
def StepOut.empty : StepOut := { opcode := none, operand := .nothing, bus := [] }

/-! ## The state -/

/-- The machine's state. `regs` to `halted` are the architectural state of the core (R20); the rest is what
the host attached or chose, what the last step put out, and the index of the free values. -/
structure State where
  /-- the seven 8-bit registers (R22) -/
  regs : Regs
  /-- program counter (R27) -/
  pc : Word
  /-- stack pointer (R28) -/
  sp : Word
  /-- S, Z, AC, P, CY (R29) -/
  flags : Flags
  /-- cycle counter (R39) -/
  cycles : BitVec 64
  /-- interrupt-enable state, written by EI and DI, read by nothing (R40) -/
  inte : Bool
  /-- halt state, set by HLT, cleared by reset only (R41) -/
  halted : Bool
  /-- the parameters of the model (R7) -/
  cfg : Config
  /-- the memory device: what stands where (R61, R76) -/
  memMap : MemMap
  /-- the memory device: contents of its RAM and ROM -/
  mem : Memory
  /-- the I/O device: what stands where (R61, R67) -/
  ioMap : IoMap
  /-- the I/O device's record of the writes it received, oldest first (D20) -/
  ioOut : List (Byte × Byte)
  /-- the model's own: how many bus transactions were made, the index of the free values (log 9) -/
  busCount : Nat
  /-- the outputs of the step just made (R303) -/
  out : StepOut
  deriving DecidableEq, Repr

/-! ## Reset -/

/-- All registers 0 (R50). -/
def Regs.reset : Regs := { b := 0#8, c := 0#8, d := 0#8, e := 0#8, h := 0#8, l := 0#8, a := 0#8 }

/-- All flags 0, so `F = 0x02` (R50). -/
def Flags.reset : Flags := { s := false, z := false, ac := false, p := false, cy := false }

/-- The machine at power-on, which equals reset (R50, R293), with the null devices attached (R66, R293) and
the parameters at their defaults (R7). The reset INPUT, which keeps the attached devices, is
`State.resetInput` of Machine/HostPort.lean (R292). -/
def State.reset : State :=
  { regs := Regs.reset, pc := 0#16, sp := 0#16, flags := Flags.reset, cycles := 0#64,
    inte := false, halted := false, cfg := Config.default,
    memMap := MemMap.null, mem := [], ioMap := IoMap.null, ioOut := [], busCount := 0,
    out := StepOut.empty }

/-! ## How a step can stop -/

/-- No constructor: the core raises no exception, fault or trap, and the step is total (R12, R110, R260:
"a model needs no fault type"; log 19). Nobody raises one. -/
inductive Fault where
  deriving DecidableEq, Repr

/-- Why a meaning is missing. -/
inductive Refusal where
  /-- the instruction of this mnemonic has no meaning in the model yet; raised by `exec` only. Safe: the
  machine stops where the hardware goes on. No arm of `exec` raises it. -/
  | notModelled (mnemonic : String)
  deriving DecidableEq, Repr

/-- What a meaning answers. -/
abbrev Result := Host.Outcome State Fault Refusal

end Sys2Proof.Machine
end

