-- ==== Sys2Proof/Machine/Flags.lean ====
section
/-! DEFINITION. The flags: the value forms of spec/10_state.md R31 to R36, the status byte R29, and the ALU
helpers of R180, R200, R170, R172 and R233. Each helper takes the old flags where it keeps some of them. -/

namespace Sys2Proof.Machine

/-! ## Value forms, from a wide result (R30 to R35) -/

/-- The 8-bit result in a wide one. -/
def low8 {n : Nat} (w : BitVec n) : Byte := w.extractLsb' 0 8

/-- A bit as a 16-bit number. -/
def bit16 (b : Bool) : BitVec 16 := if b then 1#16 else 0#16

/-- Sign: `w[7]` (R31). -/
def signOf {n : Nat} (w : BitVec n) : Bool := w.getLsbD 7

/-- Zero: `w[7:0] == 0` (R32). -/
def zeroOf {n : Nat} (w : BitVec n) : Bool := low8 w == 0#8

/-- The number of 1 bits of a byte (R9). -/
def popcount (v : Byte) : Nat :=
  (v.getLsbD 0).toNat + (v.getLsbD 1).toNat + (v.getLsbD 2).toNat + (v.getLsbD 3).toNat +
  (v.getLsbD 4).toNat + (v.getLsbD 5).toNat + (v.getLsbD 6).toNat + (v.getLsbD 7).toNat

/-- Parity: 1 for an even number of set bits in the low byte (R33). -/
def parityOf {n : Nat} (w : BitVec n) : Bool := popcount (low8 w) % 2 == 0

/-- Carry of an 8-bit operation: `w[8]` (R34). -/
def carryOf8 {n : Nat} (w : BitVec n) : Bool := w.getLsbD 8

/-- Carry of a double-byte operation: `w[16]` (R34). -/
def carryOf16 {n : Nat} (w : BitVec n) : Bool := w.getLsbD 16

/-- Auxiliary carry: bit 4 of the nibble sum (R35, C1). -/
def auxOf {n : Nat} (n5 : BitVec n) : Bool := n5.getLsbD 4

/-- The low nibble of a byte, widened. -/
def nibble (v : Byte) : BitVec 16 := (v &&& 0x0F#8).setWidth 16

/-- `SetSZP(v8)`: S, Z and P from a byte; AC and CY stay (R36). -/
def Flags.setSZP (f : Flags) (v : Byte) : Flags :=
  { f with s := signOf v, z := zeroOf v, p := parityOf v }

/-! ## The status byte (R29) -/

/-- `F = {S, Z, 0, AC, 0, P, 1, CY}`. -/
def Flags.statusByte (f : Flags) : Byte :=
  BitVec.ofBool f.s ++ BitVec.ofBool f.z ++ 0#1 ++ BitVec.ofBool f.ac ++ 0#1 ++ BitVec.ofBool f.p ++
    1#1 ++ BitVec.ofBool f.cy

/-- A write of the status byte: bits 7, 6, 4, 2, 0 are kept, bits 5, 3, 1 discarded (R29, R143). -/
def Flags.ofStatusByte (v : Byte) : Flags :=
  { s := v.getLsbD 7, z := v.getLsbD 6, ac := v.getLsbD 4, p := v.getLsbD 2, cy := v.getLsbD 0 }

/-! ## The ALU helpers; each answers the 8-bit result and the flags -/

/-- `Add8(a, b, cin)` (R180). -/
def add8 (a b : Byte) (cin : Bool) : Byte × Flags :=
  let w := a.setWidth 16 + b.setWidth 16 + bit16 cin
  let n5 := nibble a + nibble b + bit16 cin
  (low8 w, { s := signOf w, z := zeroOf w, ac := auxOf n5, p := parityOf w, cy := carryOf8 w })

/-- The nibble value of a subtraction, by `SUB_AUX_MODE` (R35, R180). -/
def subNibble (mode : SubAuxMode) (a b : Byte) (bin : Bool) : BitVec 16 :=
  match mode with
  | .i8080 => nibble a + nibble (~~~b) + (1#16 - bit16 bin)
  | .borrow => nibble a - nibble b - bit16 bin

/-- `Sub8(a, b, bin)` (R180). -/
def sub8 (mode : SubAuxMode) (a b : Byte) (bin : Bool) : Byte × Flags :=
  let w := a.setWidth 16 - b.setWidth 16 - bit16 bin
  (low8 w,
    { s := signOf w, z := zeroOf w, ac := auxOf (subNibble mode a b bin), p := parityOf w,
      cy := carryOf8 w })

/-- The three bitwise operations of R200. -/
inductive LogicOp where
  | and | xor | or
  deriving DecidableEq, Repr

/-- `a op b`. -/
def LogicOp.apply (op : LogicOp) (a b : Byte) : Byte :=
  match op with
  | .and => a &&& b
  | .xor => a ^^^ b
  | .or => a ||| b

/-- AC after a bitwise operation: bit 3 of the OR of the operands for AND, else 0 (R200). -/
def LogicOp.aux (op : LogicOp) (a b : Byte) : Bool :=
  match op with
  | .and => (a ||| b).getLsbD 3
  | .xor => false
  | .or => false

/-- `Logic8(op, a, b)` (R200). -/
def logic8 (op : LogicOp) (a b : Byte) : Byte × Flags :=
  let res := op.apply a b
  (res, { s := signOf res, z := zeroOf res, ac := op.aux a b, p := parityOf res, cy := false })

/-- The increment of INR: CY stays (R170). -/
def inc8 (v : Byte) (f : Flags) : Byte × Flags :=
  let res := v + 1#8
  (res, { f with ac := nibble v == 15#16 }.setSZP res)

/-- The decrement of DCR: CY stays (R172). -/
def dec8 (mode : SubAuxMode) (v : Byte) (f : Flags) : Byte × Flags :=
  let res := v - 1#8
  let ac :=
    match mode with
    | .i8080 => nibble v != 0#16
    | .borrow => nibble v == 0#16
  (res, { f with ac := ac }.setSZP res)

/-- The decimal adjustment of DAA (R233). -/
def daa8 (a : Byte) (f : Flags) : Byte × Flags :=
  let lo := nibble a
  let step1 := decide (9#16 < lo) || f.ac
  let six := if step1 then 6#16 else 0#16
  let t := a.setWidth 16 + six
  let step2 := decide (9#16 < t >>> 4) || f.cy
  let w := t + (if step2 then 0x60#16 else 0#16)
  (low8 w, { f with ac := auxOf (lo + six), cy := step2 }.setSZP (low8 w))

/-- The four rotates: the accumulator and CY after (R220 to R223). -/
inductive RotateOp where
  | rlc | rrc | ral | rar
  deriving DecidableEq, Repr

/-- The rotated accumulator (R220 to R223). -/
def RotateOp.apply (op : RotateOp) (a : Byte) (cy : Bool) : Byte :=
  match op with
  | .rlc => a.extractLsb' 0 7 ++ BitVec.ofBool (a.getLsbD 7)
  | .rrc => BitVec.ofBool (a.getLsbD 0) ++ a.extractLsb' 1 7
  | .ral => a.extractLsb' 0 7 ++ BitVec.ofBool cy
  | .rar => BitVec.ofBool cy ++ a.extractLsb' 1 7

/-- CY after a rotate: the bit that left the accumulator. -/
def RotateOp.carry (op : RotateOp) (a : Byte) : Bool :=
  match op with
  | .rlc => a.getLsbD 7
  | .rrc => a.getLsbD 0
  | .ral => a.getLsbD 7
  | .rar => a.getLsbD 0

/-- The double-byte addition of DAD, 32 bits wide (R189). -/
def add16 (x y : Word) : Word × Bool :=
  let w := x.setWidth 32 + y.setWidth 32
  (w.extractLsb' 0 16, carryOf16 w)

/-- `Cond(CCC)` (R95, R158). -/
def Flags.holds (f : Flags) : Cond → Bool
  | .nz => !f.z
  | .z => f.z
  | .nc => !f.cy
  | .c => f.cy
  | .po => !f.p
  | .pe => f.p
  | .p => !f.s
  | .m => f.s

end Sys2Proof.Machine
end

