-- ==== Sys2Proof/Machine/Memory.lean ====
section
/-! DEFINITION. The contents of the memory device as a list of cells in one canonical form: addresses
strictly rising and below 2^16, no entry equal to what an unlisted address holds. -/

namespace Sys2Proof.Machine

/-- What a byte of RAM or ROM holds that nobody has written: 0x00, as in the RAM of the test vectors (D20,
U4). DESIGN CHOICE, unsafe (log 5). -/
def unlistedByte : Byte := 0#8

/-- The byte at an address. -/
def Memory.read : Memory → Nat → Byte
  | [], _ => unlistedByte
  | (k, v) :: rest, a => if k = a then v else Memory.read rest a

/-- The memory with one byte written; writing what an unlisted address holds removes the entry. -/
def Memory.write : Memory → Nat → Byte → Memory
  | [], a, v => if v = unlistedByte then [] else [(a, v)]
  | (k, w) :: rest, a, v =>
    if a < k then
      if v = unlistedByte then (k, w) :: rest else (a, v) :: (k, w) :: rest
    else if a = k then
      if v = unlistedByte then rest else (a, v) :: rest
    else (k, w) :: Memory.write rest a v

/-- The canonical form, every address at least `lo`. -/
def Memory.wfFrom : Nat → Memory → Bool
  | _, [] => true
  | lo, (k, v) :: rest =>
    decide (lo ≤ k) && decide (k < 65536) && (v != unlistedByte) && Memory.wfFrom (k + 1) rest

/-- The canonical form. -/
def Memory.wf (m : Memory) : Bool := Memory.wfFrom 0 m

end Sys2Proof.Machine
end

