-- ==== Sys2Proof/Machine/Ops.lean ====
section
/-! DEFINITION. The named operations over registers, memory, ports, stack and control that every meaning is
built from (spec/10_state.md, 20_memory.md, 30_encoding.md R110). -/

namespace Sys2Proof.Machine

/-! ## Registers and pairs (R22, R24, R28) -/

/-- A register of the file. -/
def Regs.get (x : Regs) : Reg → Byte
  | .b => x.b
  | .c => x.c
  | .d => x.d
  | .e => x.e
  | .h => x.h
  | .l => x.l
  | .a => x.a

/-- The file with one register written. -/
def Regs.set (x : Regs) (r : Reg) (v : Byte) : Regs :=
  match r with
  | .b => { x with b := v }
  | .c => { x with c := v }
  | .d => { x with d := v }
  | .e => { x with e := v }
  | .h => { x with h := v }
  | .l => { x with l := v }
  | .a => { x with a := v }

/-- The high register of a pair: the first-named one (R24). -/
def Pair.high : Pair → Reg
  | .bc => .b
  | .de => .d
  | .hl => .h

/-- The low register of a pair (R24). -/
def Pair.low : Pair → Reg
  | .bc => .c
  | .de => .e
  | .hl => .l

/-- `r[i]` (R10). -/
def State.reg (s : State) (r : Reg) : Byte := s.regs.get r

/-- `r[i] <- v` (R10). -/
def State.setReg (s : State) (r : Reg) (v : Byte) : State := { s with regs := s.regs.set r v }

/-- `rp[p]`: the first-named register is the high byte (R24). -/
def State.pair (s : State) (p : Pair) : Word := mkWord (s.reg (Pair.high p)) (s.reg (Pair.low p))

/-- `rp[p] <- w`, both halves at once (R24). -/
def State.setPair (s : State) (p : Pair) (w : Word) : State :=
  (s.setReg (Pair.high p) (hiByte w)).setReg (Pair.low p) (loByte w)

/-- The address of `M` (R26). -/
def State.hl (s : State) : Word := s.pair .hl

/-- `Rp16(code)` (R94). -/
def State.rp16 (s : State) : Rp → Word
  | .bc => s.pair .bc
  | .de => s.pair .de
  | .hl => s.pair .hl
  | .sp => s.sp

/-- `sp <- w` (R28). -/
def State.setSp (s : State) (w : Word) : State := { s with sp := w }

/-- `SetRp16(code, w)` (R94). -/
def State.setRp16 (s : State) (r : Rp) (w : Word) : State :=
  match r with
  | .bc => s.setPair .bc w
  | .de => s.setPair .de w
  | .hl => s.setPair .hl w
  | .sp => s.setSp w

/-- The flags written (R30). -/
def State.setFlags (s : State) (f : Flags) : State := { s with flags := f }

/-- CY alone written, boolean form (R30). -/
def State.setCarry (s : State) (b : Bool) : State := { s with flags := { s.flags with cy := b } }

/-- `inte <- b` (R40). -/
def State.setInte (s : State) (b : Bool) : State := { s with inte := b }

/-- `halted <- b` (R41). -/
def State.setHalted (s : State) (b : Bool) : State := { s with halted := b }

/-- `F`, the status byte (R29). -/
def State.status (s : State) : Byte := s.flags.statusByte

/-- The PSW pair `{r[A], F}` (R37). -/
def State.psw (s : State) : Word := mkWord (s.reg .a) s.status

/-- A write of the PSW pair (R37, R143). -/
def State.setPsw (s : State) (w : Word) : State :=
  (s.setReg .a (hiByte w)).setFlags (Flags.ofStatusByte (loByte w))

/-! ## The memory bus (R62 to R66) -/

/-- Whether a region holds an address. -/
def Region.holds (r : Region) (a : Word) : Bool := decide (r.first ≤ a) && decide (a ≤ r.last)

/-- What stands behind an address. -/
def MemMap.kindAt (m : MemMap) (a : Word) : MemKind :=
  match m.regions.find? fun r => r.holds a with
  | some r => r.kind
  | none => m.rest

/-- The byte the memory device holds at an address of its RAM or ROM. -/
def State.cell (s : State) (a : Word) : Byte := s.mem.read a.toNat

/-- The byte the memory device answers when the `k`-th transaction from now (0 is the next) reads `a`: 0
where nothing is attached (R66), the byte held where there is RAM or ROM, a free value elsewhere (U3). -/
def State.answer (s : State) (k : Nat) (a : Word) : Byte :=
  match s.memMap.kindAt a with
  | .absent => 0#8
  | .ram => s.cell a
  | .rom => s.cell a
  | .device => Config.memAnswer (s.busCount + k) a

/-- What a write does to the memory device: RAM stores it, everything else does not (R63, R66, U14). -/
def State.store (s : State) (a : Word) (v : Byte) : State :=
  match s.memMap.kindAt a with
  | .absent => s
  | .ram => { s with mem := s.mem.write a.toNat v }
  | .rom => s
  | .device => s

/-- A bus transaction is made: it is counted and joins the step's outputs (R73). -/
def State.note (s : State) (e : BusEvent) : State :=
  { s with busCount := s.busCount + 1, out := { s.out with bus := s.out.bus ++ [e] } }

/-- `MemRead(addr, 1)` (R62). -/
def State.memRead (s : State) (a : Word) : Byte × State :=
  (s.answer 0 a, s.note (.memRead a (s.answer 0 a)))

/-- `MemWrite(addr, 1, v)` (R63). -/
def State.memWrite (s : State) (a : Word) (v : Byte) : State :=
  (s.store a v).note (.memWrite a v)

/-- `MemRead(addr, 2)`: little-endian, low byte first (R64). -/
def State.memRead16 (s : State) (a : Word) : Word × State :=
  let lo := s.memRead a
  let hi := lo.2.memRead (a + 1#16)
  (mkWord hi.1 lo.1, hi.2)

/-- `MemWrite(addr, 2, w)`: little-endian, low byte first (R65). -/
def State.memWrite16 (s : State) (a : Word) (w : Word) : State :=
  (s.memWrite a (loByte w)).memWrite (a + 1#16) (hiByte w)

/-! ## The I/O bus (R67) -/

/-- What stands behind a port. -/
def IoMap.kindAt (m : IoMap) (p : Byte) : PortKind := (m.ports.lookup p).getD m.rest

/-- The byte the I/O device answers to a read of a port that is the next transaction (R66, R240, U3). -/
def State.portAnswer (s : State) (p : Byte) : Byte :=
  match s.ioMap.kindAt p with
  | .absent => 0#8
  | .fixed v => v
  | .device => Config.portAnswer s.busCount p

/-- What a write does to the I/O device: an attached one records it, the null device ignores it (R66, D20). -/
def State.portStore (s : State) (p v : Byte) : State :=
  match s.ioMap.kindAt p with
  | .absent => s
  | .fixed _ => { s with ioOut := s.ioOut ++ [(p, v)] }
  | .device => { s with ioOut := s.ioOut ++ [(p, v)] }

/-- `IORead(port)` (R67). -/
def State.ioRead (s : State) (p : Byte) : Byte × State :=
  (s.portAnswer p, s.note (.ioRead p (s.portAnswer p)))

/-- `IOWrite(port, v)` (R67). -/
def State.ioWrite (s : State) (p v : Byte) : State :=
  (s.portStore p v).note (.ioWrite p v)

/-! ## The stack (R68, R70, R71) -/

/-- `Push16(w)`: `sp` is decremented first, the high byte written first (R70). -/
def State.push16 (s : State) (w : Word) : State :=
  let t := s.setSp (s.sp - 2#16)
  if t.cfg.stackHiAtSp then
    (t.memWrite t.sp (hiByte w)).memWrite (t.sp + 1#16) (loByte w)
  else
    (t.memWrite (t.sp + 1#16) (hiByte w)).memWrite t.sp (loByte w)

/-- The word at the top of the stack, the byte at `sp` read first; `sp` stays (R71, R144). -/
def State.readTop (s : State) : Word × State :=
  let first := s.memRead s.sp
  let second := first.2.memRead (s.sp + 1#16)
  (if s.cfg.stackHiAtSp then mkWord first.1 second.1 else mkWord second.1 first.1, second.2)

/-- The word at the top of the stack written over, the byte at `sp` first; `sp` stays (R144). -/
def State.writeTop (s : State) (w : Word) : State :=
  if s.cfg.stackHiAtSp then
    (s.memWrite s.sp (hiByte w)).memWrite (s.sp + 1#16) (loByte w)
  else
    (s.memWrite s.sp (loByte w)).memWrite (s.sp + 1#16) (hiByte w)

/-- `Pop16()`: `sp` is incremented after the reads (R71). -/
def State.pop16 (s : State) : Word × State :=
  let r := s.readTop
  (r.1, r.2.setSp (s.sp + 2#16))

/-! ## The end of a step (R110 items 4 and 5) -/

/-- `pc <- w` (R10). -/
def State.setPc (s : State) (w : Word) : State := { s with pc := w }

/-- `cycles` increased, modulo 2^64 (R39). -/
def State.addCycles (s : State) (n : Nat) : State := { s with cycles := s.cycles + BitVec.ofNat 64 n }

/-- `next = (pc0 + len) mod 2^16` (R13); while the operation runs `pc` is `pc0` (R110). -/
def State.nextPc (s : State) (i : Instr) : Word := s.pc + BitVec.ofNat 16 i.length

/-- The end of an operation that did not write `pc`. -/
def State.advance (s : State) (i : Instr) : State :=
  (s.setPc (s.nextPc i)).addCycles (s.cfg.baseCycles i.opcode)

/-- The end of an unconditional transfer. -/
def State.jump (s : State) (i : Instr) (target : Word) : State :=
  (s.setPc target).addCycles (s.cfg.baseCycles i.opcode)

/-- The end of a conditional transfer that was taken. -/
def State.jumpTaken (s : State) (i : Instr) (target : Word) : State :=
  (s.setPc target).addCycles (s.cfg.baseCycles i.opcode + s.cfg.extraCycles i.opcode)

end Sys2Proof.Machine
end

