-- ==== Sys2Proof/Machine/Operands.lean ====
section
/-! DEFINITION. The operand forms: the 8-bit operand `Src8` (spec/30_encoding.md R93), the address pair of
LDAX and STAX (R94), the addressing-mode resolver (R100 to R105), and the shapes of operation that several
instructions share. -/

namespace Sys2Proof.Machine

/-- `Src8(code)`: a register, or the byte read at HL (R93). -/
def State.src8 (s : State) : Operand8 → Byte × State
  | .reg r => (s.reg r, s)
  | .m => s.memRead s.hl

/-- The address in BC or DE (R130, R131). -/
def State.indAddr (s : State) : IndPair → Word
  | .bc => s.pair .bc
  | .de => s.pair .de

/-- The output of the resolver for an instruction of a mode with operand bytes `b2`, `b3` (R101 to R105,
R303). -/
def State.resolve (s : State) (mode : Mode) (b2 b3 : Byte) : Resolved :=
  match mode with
  | .implied => .nothing
  | .imm8 => .imm8 b2
  | .imm16 => .imm16 (mkWord b3 b2)
  | .hlInd => .hlInd s.hl
  | .direct => .direct (mkWord b3 b2)

/-- An accumulator operation on an operand: result to A, flags written (R181 to R184, R201 to R203). -/
def State.accumulate (s : State) (f : Byte → Byte → Byte × Flags) (v : Byte) : State :=
  (s.setReg .a (f (s.reg .a) v).1).setFlags (f (s.reg .a) v).2

/-- A comparison: the flags of the subtraction, its result discarded (R204, R208). -/
def State.compare (s : State) (v : Byte) : State :=
  s.setFlags (sub8 s.cfg.subAuxMode (s.reg .a) v false).2

/-- A rotate of the accumulator: CY alone of the flags is written (R220 to R223). -/
def State.rotate (s : State) (op : RotateOp) : State :=
  (s.setReg .a (op.apply (s.reg .a) s.flags.cy)).setCarry (op.carry (s.reg .a))

/-- A conditional jump (R151). -/
def State.jumpIf (s : State) (cond : Cond) (i : Instr) (a16 : Word) : State :=
  if s.flags.holds cond then s.jumpTaken i a16 else s.advance i

/-- A call: the address of the next instruction is pushed, then `pc` written (R152). -/
def State.callTo (s : State) (i : Instr) (a16 : Word) : State :=
  (s.push16 (s.nextPc i)).jump i a16

/-- A conditional call (R153). -/
def State.callIf (s : State) (cond : Cond) (i : Instr) (a16 : Word) : State :=
  if s.flags.holds cond then (s.push16 (s.nextPc i)).jumpTaken i a16 else s.advance i

/-- A return (R154). -/
def State.returnFrom (s : State) (i : Instr) : State := s.pop16.2.jump i s.pop16.1

/-- A conditional return; not taken, it reads no memory (R155). -/
def State.returnIf (s : State) (cond : Cond) (i : Instr) : State :=
  if s.flags.holds cond then s.pop16.2.jumpTaken i s.pop16.1 else s.advance i

end Sys2Proof.Machine
end

