-- ==== Sys2Proof/Machine/Arithmetic.lean ====
section
/-! DEFINITION. The meanings of addition and subtraction, one definition an instruction (spec/44_arithmetic.md R180 to R189). -/

namespace Sys2Proof.Machine

/-- ADD r and ADD M (R181). -/
def execAdd (src : Operand8) (s : State) : Result :=
  let f := s.src8 src
  .next ((f.2.accumulate (fun a b => add8 a b false) f.1).advance (.add src))

/-- ADC r and ADC M (R182). -/
def execAdc (src : Operand8) (s : State) : Result :=
  let f := s.src8 src
  .next ((f.2.accumulate (fun a b => add8 a b s.flags.cy) f.1).advance (.adc src))

/-- SUB r and SUB M (R183). -/
def execSub (src : Operand8) (s : State) : Result :=
  let f := s.src8 src
  .next ((f.2.accumulate (fun a b => sub8 s.cfg.subAuxMode a b false) f.1).advance (.sub src))

/-- SBB r and SBB M (R184). -/
def execSbb (src : Operand8) (s : State) : Result :=
  let f := s.src8 src
  .next ((f.2.accumulate (fun a b => sub8 s.cfg.subAuxMode a b s.flags.cy) f.1).advance (.sbb src))

/-- ADI d8 (R185). -/
def execAdi (d8 : Byte) (s : State) : Result :=
  .next ((s.accumulate (fun a b => add8 a b false) d8).advance (.adi d8))

/-- ACI d8 (R186). -/
def execAci (d8 : Byte) (s : State) : Result :=
  .next ((s.accumulate (fun a b => add8 a b s.flags.cy) d8).advance (.aci d8))

/-- SUI d8 (R187). -/
def execSui (d8 : Byte) (s : State) : Result :=
  .next ((s.accumulate (fun a b => sub8 s.cfg.subAuxMode a b false) d8).advance (.sui d8))

/-- SBI d8 (R188). -/
def execSbi (d8 : Byte) (s : State) : Result :=
  .next ((s.accumulate (fun a b => sub8 s.cfg.subAuxMode a b s.flags.cy) d8).advance (.sbi d8))

/-- DAD rp: CY only (R189). -/
def execDad (pr : Rp) (s : State) : Result :=
  let q := add16 s.hl (s.rp16 pr)
  .next (((s.setCarry q.2).setPair .hl q.1).advance (.dad pr))

end Sys2Proof.Machine
end

