-- ==== Sys2Proof/Machine/Control.lean ====
section
/-! DEFINITION. The meanings of jump, call, return and restart, one definition an instruction (spec/42_control_transfer.md R150 to R162). -/

namespace Sys2Proof.Machine

/-- JMP a16 (R150). -/
def execJmp (a16 : Word) (s : State) : Result :=
  .next (s.jump (.jmp a16) a16)

/-- 0xCB, exactly as JMP (R160). -/
def execJmpDup (a16 : Word) (s : State) : Result :=
  .next (s.jump (.jmpDup a16) a16)

/-- JNZ a16: jump if not zero (R151). -/
def execJnz (a16 : Word) (s : State) : Result :=
  .next (s.jumpIf .nz (.jnz a16) a16)

/-- JZ a16: jump if zero (R151). -/
def execJz (a16 : Word) (s : State) : Result :=
  .next (s.jumpIf .z (.jz a16) a16)

/-- JNC a16: jump if no carry (R151). -/
def execJnc (a16 : Word) (s : State) : Result :=
  .next (s.jumpIf .nc (.jnc a16) a16)

/-- JC a16: jump if carry (R151). -/
def execJc (a16 : Word) (s : State) : Result :=
  .next (s.jumpIf .c (.jc a16) a16)

/-- JPO a16: jump if parity odd (R151). -/
def execJpo (a16 : Word) (s : State) : Result :=
  .next (s.jumpIf .po (.jpo a16) a16)

/-- JPE a16: jump if parity even (R151). -/
def execJpe (a16 : Word) (s : State) : Result :=
  .next (s.jumpIf .pe (.jpe a16) a16)

/-- JP a16: jump if plus (R151). -/
def execJp (a16 : Word) (s : State) : Result :=
  .next (s.jumpIf .p (.jp a16) a16)

/-- JM a16: jump if minus (R151). -/
def execJm (a16 : Word) (s : State) : Result :=
  .next (s.jumpIf .m (.jm a16) a16)

/-- CALL a16 (R152). -/
def execCall (a16 : Word) (s : State) : Result :=
  .next (s.callTo (.call a16) a16)

/-- 0xDD, 0xED, 0xFD, exactly as CALL (R162). -/
def execCallDup (p : BitVec 2) (a16 : Word) (s : State) : Result :=
  .next (s.callTo (.callDup p a16) a16)

/-- CNZ a16: call if not zero (R153). -/
def execCnz (a16 : Word) (s : State) : Result :=
  .next (s.callIf .nz (.cnz a16) a16)

/-- CZ a16: call if zero (R153). -/
def execCz (a16 : Word) (s : State) : Result :=
  .next (s.callIf .z (.cz a16) a16)

/-- CNC a16: call if no carry (R153). -/
def execCnc (a16 : Word) (s : State) : Result :=
  .next (s.callIf .nc (.cnc a16) a16)

/-- CC a16: call if carry (R153). -/
def execCc (a16 : Word) (s : State) : Result :=
  .next (s.callIf .c (.cc a16) a16)

/-- CPO a16: call if parity odd (R153). -/
def execCpo (a16 : Word) (s : State) : Result :=
  .next (s.callIf .po (.cpo a16) a16)

/-- CPE a16: call if parity even (R153). -/
def execCpe (a16 : Word) (s : State) : Result :=
  .next (s.callIf .pe (.cpe a16) a16)

/-- CP a16: call if plus (R153). -/
def execCp (a16 : Word) (s : State) : Result :=
  .next (s.callIf .p (.cp a16) a16)

/-- CM a16: call if minus (R153). -/
def execCm (a16 : Word) (s : State) : Result :=
  .next (s.callIf .m (.cm a16) a16)

/-- RET (R154). -/
def execRet (s : State) : Result :=
  .next (s.returnFrom .ret)

/-- 0xD9, exactly as RET (R161). -/
def execRetDup (s : State) : Result :=
  .next (s.returnFrom .retDup)

/-- RNZ: return if not zero (R155). -/
def execRnz (s : State) : Result :=
  .next (s.returnIf .nz .rnz)

/-- RZ: return if zero (R155). -/
def execRz (s : State) : Result :=
  .next (s.returnIf .z .rz)

/-- RNC: return if no carry (R155). -/
def execRnc (s : State) : Result :=
  .next (s.returnIf .nc .rnc)

/-- RC: return if carry (R155). -/
def execRc (s : State) : Result :=
  .next (s.returnIf .c .rc)

/-- RPO: return if parity odd (R155). -/
def execRpo (s : State) : Result :=
  .next (s.returnIf .po .rpo)

/-- RPE: return if parity even (R155). -/
def execRpe (s : State) : Result :=
  .next (s.returnIf .pe .rpe)

/-- RP: return if plus (R155). -/
def execRp (s : State) : Result :=
  .next (s.returnIf .p .rp)

/-- RM: return if minus (R155). -/
def execRm (s : State) : Result :=
  .next (s.returnIf .m .rm)

/-- RST n: a call of address `8 * n` (R156, R97). -/
def execRst (n : BitVec 3) (s : State) : Result :=
  .next (s.callTo (.rst n) (n.setWidth 16 <<< 3))

/-- PCHL (R157). -/
def execPchl (s : State) : Result :=
  .next (s.jump .pchl s.hl)

end Sys2Proof.Machine
end

