-- ==== Sys2Proof/Machine/DataTransfer.lean ====
section
/-! DEFINITION. The meanings of move, load and store, one definition an instruction (spec/40_data_transfer.md R120 to R132). -/

namespace Sys2Proof.Machine

/-- MOV r1,r2: `r[DDD] <- r[SSS]` (R120). -/
def execMovRR (dst src : Reg) (s : State) : Result :=
  .next ((s.setReg dst (s.reg src)).advance (.movRR dst src))

/-- MOV r,M: the byte at the old HL (R121). -/
def execMovRM (dst : Reg) (s : State) : Result :=
  let f := s.memRead s.hl
  .next ((f.2.setReg dst f.1).advance (.movRM dst))

/-- MOV M,r: no memory read happens (R122). -/
def execMovMR (src : Reg) (s : State) : Result :=
  .next ((s.memWrite s.hl (s.reg src)).advance (.movMR src))

/-- MVI r,d8 (R123). -/
def execMviR (dst : Reg) (d8 : Byte) (s : State) : Result :=
  .next ((s.setReg dst d8).advance (.mviR dst d8))

/-- MVI M,d8 (R124). -/
def execMviM (d8 : Byte) (s : State) : Result :=
  .next ((s.memWrite s.hl d8).advance (.mviM d8))

/-- LXI rp,d16 (R125). -/
def execLxi (pr : Rp) (d16 : Word) (s : State) : Result :=
  .next ((s.setRp16 pr d16).advance (.lxi pr d16))

/-- LDA a16 (R126). -/
def execLda (a16 : Word) (s : State) : Result :=
  let f := s.memRead a16
  .next ((f.2.setReg .a f.1).advance (.lda a16))

/-- STA a16 (R127). -/
def execSta (a16 : Word) (s : State) : Result :=
  .next ((s.memWrite a16 (s.reg .a)).advance (.sta a16))

/-- LHLD a16: L from the lower address (R128). -/
def execLhld (a16 : Word) (s : State) : Result :=
  let f := s.memRead16 a16
  .next ((f.2.setPair .hl f.1).advance (.lhld a16))

/-- SHLD a16: L to the lower address (R129). -/
def execShld (a16 : Word) (s : State) : Result :=
  .next ((s.memWrite16 a16 s.hl).advance (.shld a16))

/-- LDAX rp (R130). -/
def execLdax (pr : IndPair) (s : State) : Result :=
  let f := s.memRead (s.indAddr pr)
  .next ((f.2.setReg .a f.1).advance (.ldax pr))

/-- STAX rp (R131). -/
def execStax (pr : IndPair) (s : State) : Result :=
  .next ((s.memWrite (s.indAddr pr) (s.reg .a)).advance (.stax pr))

/-- XCHG (R132). -/
def execXchg (s : State) : Result :=
  .next (((s.setPair .hl (s.pair .de)).setPair .de (s.pair .hl)).advance .xchg)

end Sys2Proof.Machine
end

