-- ==== Sys2Proof/Machine/InOut.lean ====
section
/-! DEFINITION. The meanings of input and output, one definition an instruction (spec/48_io.md R240, R241). -/

namespace Sys2Proof.Machine

/-- IN p8 (R240). -/
def execInp (p8 : Byte) (s : State) : Result :=
  let f := s.ioRead p8
  .next ((f.2.setReg .a f.1).advance (.inp p8))

/-- OUT p8 (R241). -/
def execOut (p8 : Byte) (s : State) : Result :=
  .next ((s.ioWrite p8 (s.reg .a)).advance (.out p8))

end Sys2Proof.Machine
end

