-- ==== Sys2Proof/Machine/IncDec.lean ====
section
/-! DEFINITION. The meanings of increment and decrement, one definition an instruction (spec/43_inc_dec.md R170 to R175). -/

namespace Sys2Proof.Machine

/-- INR r: CY stays (R170). -/
def execInrR (r : Reg) (s : State) : Result :=
  let q := inc8 (s.reg r) s.flags
  .next (((s.setFlags q.2).setReg r q.1).advance (.inrR r))

/-- INR M: one read, then one write of the same address (R171). -/
def execInrM (s : State) : Result :=
  let f := s.memRead s.hl
  let q := inc8 f.1 s.flags
  .next (((f.2.setFlags q.2).memWrite s.hl q.1).advance .inrM)

/-- DCR r: CY stays (R172). -/
def execDcrR (r : Reg) (s : State) : Result :=
  let q := dec8 s.cfg.subAuxMode (s.reg r) s.flags
  .next (((s.setFlags q.2).setReg r q.1).advance (.dcrR r))

/-- DCR M (R173). -/
def execDcrM (s : State) : Result :=
  let f := s.memRead s.hl
  let q := dec8 s.cfg.subAuxMode f.1 s.flags
  .next (((f.2.setFlags q.2).memWrite s.hl q.1).advance .dcrM)

/-- INX rp: no flag (R174). -/
def execInx (pr : Rp) (s : State) : Result :=
  .next ((s.setRp16 pr (s.rp16 pr + 1#16)).advance (.inx pr))

/-- DCX rp: no flag (R175). -/
def execDcx (pr : Rp) (s : State) : Result :=
  .next ((s.setRp16 pr (s.rp16 pr - 1#16)).advance (.dcx pr))

end Sys2Proof.Machine
end

