-- ==== Sys2Proof/Machine/Logic.lean ====
section
/-! DEFINITION. The meanings of the bitwise operations and compare, one definition an instruction (spec/45_logical.md R200 to R208). -/

namespace Sys2Proof.Machine

/-- ANA r and ANA M (R201). -/
def execAna (src : Operand8) (s : State) : Result :=
  let f := s.src8 src
  .next ((f.2.accumulate (fun a b => logic8 .and a b) f.1).advance (.ana src))

/-- XRA r and XRA M (R202). -/
def execXra (src : Operand8) (s : State) : Result :=
  let f := s.src8 src
  .next ((f.2.accumulate (fun a b => logic8 .xor a b) f.1).advance (.xra src))

/-- ORA r and ORA M (R203). -/
def execOra (src : Operand8) (s : State) : Result :=
  let f := s.src8 src
  .next ((f.2.accumulate (fun a b => logic8 .or a b) f.1).advance (.ora src))

/-- CMP r and CMP M (R204). -/
def execCmp (src : Operand8) (s : State) : Result :=
  let f := s.src8 src
  .next ((f.2.compare f.1).advance (.cmp src))

/-- ANI d8 (R205). -/
def execAni (d8 : Byte) (s : State) : Result :=
  .next ((s.accumulate (fun a b => logic8 .and a b) d8).advance (.ani d8))

/-- XRI d8 (R206). -/
def execXri (d8 : Byte) (s : State) : Result :=
  .next ((s.accumulate (fun a b => logic8 .xor a b) d8).advance (.xri d8))

/-- ORI d8 (R207). -/
def execOri (d8 : Byte) (s : State) : Result :=
  .next ((s.accumulate (fun a b => logic8 .or a b) d8).advance (.ori d8))

/-- CPI d8 (R208). -/
def execCpi (d8 : Byte) (s : State) : Result :=
  .next ((s.compare d8).advance (.cpi d8))

end Sys2Proof.Machine
end

