-- ==== Sys2Proof/Machine/MachineControl.lean ====
section
/-! DEFINITION. The meanings of EI, DI, NOP, HLT, one definition an instruction (spec/49_control.md R245 to R249). -/

namespace Sys2Proof.Machine

/-- EI: no bus hook is invoked (R245). -/
def execEi (s : State) : Result :=
  .next ((s.setInte true).advance .ei)

/-- DI (R246). -/
def execDi (s : State) : Result :=
  .next ((s.setInte false).advance .di)

/-- NOP (R247). -/
def execNop (s : State) : Result :=
  .next (s.advance .nop)

/-- 0x08, 0x10, 0x18, 0x20, 0x28, 0x30, 0x38, as NOP (R249). -/
def execNopDup (n : BitVec 3) (s : State) : Result :=
  .next (s.advance (.nopDup n))

/-- HLT: the step completes, `pc` advances, and the core has no further step (R248). -/
def execHlt (s : State) : Result :=
  .next ((s.setHalted true).advance .hlt)

end Sys2Proof.Machine
end

