-- ==== Sys2Proof/Machine/Rotate.lean ====
section
/-! DEFINITION. The meanings of the rotates, one definition an instruction (spec/46_rotate.md R220 to R223). -/

namespace Sys2Proof.Machine

/-- RLC (R220). -/
def execRlc (s : State) : Result :=
  .next ((s.rotate .rlc).advance .rlc)

/-- RRC (R221). -/
def execRrc (s : State) : Result :=
  .next ((s.rotate .rrc).advance .rrc)

/-- RAL (R222). -/
def execRal (s : State) : Result :=
  .next ((s.rotate .ral).advance .ral)

/-- RAR (R223). -/
def execRar (s : State) : Result :=
  .next ((s.rotate .rar).advance .rar)

end Sys2Proof.Machine
end

