-- ==== Sys2Proof/Machine/Special.lean ====
section
/-! DEFINITION. The meanings of CMA, STC, CMC, DAA, one definition an instruction (spec/47_special.md R230 to R233). -/

namespace Sys2Proof.Machine

/-- CMA: no flag (R230). -/
def execCma (s : State) : Result :=
  .next ((s.setReg .a (~~~(s.reg .a))).advance .cma)

/-- STC (R231). -/
def execStc (s : State) : Result :=
  .next ((s.setCarry true).advance .stc)

/-- CMC (R232). -/
def execCmc (s : State) : Result :=
  .next ((s.setCarry (!s.flags.cy)).advance .cmc)

/-- DAA (R233). -/
def execDaa (s : State) : Result :=
  let q := daa8 (s.reg .a) s.flags
  .next (((s.setReg .a q.1).setFlags q.2).advance .daa)

end Sys2Proof.Machine
end

