-- ==== Sys2Proof/Machine/Stack.lean ====
section
/-! DEFINITION. The meanings of the stack instructions, one definition an instruction (spec/41_stack.md R140 to R145). -/

namespace Sys2Proof.Machine

/-- PUSH rp (R140). -/
def execPush (pr : Pair) (s : State) : Result :=
  .next ((s.push16 (s.pair pr)).advance (.push pr))

/-- PUSH PSW (R141). -/
def execPushPsw (s : State) : Result :=
  .next ((s.push16 s.psw).advance .pushPsw)

/-- POP rp (R142). -/
def execPop (pr : Pair) (s : State) : Result :=
  let f := s.pop16
  .next ((f.2.setPair pr f.1).advance (.pop pr))

/-- POP PSW: the fixed bits of the popped byte are discarded (R143). -/
def execPopPsw (s : State) : Result :=
  let f := s.pop16
  .next ((f.2.setPsw f.1).advance .popPsw)

/-- XTHL: both reads come before both writes (R144). -/
def execXthl (s : State) : Result :=
  let f := s.readTop
  .next (((f.2.writeTop s.hl).setPair .hl f.1).advance .xthl)

/-- SPHL (R145). -/
def execSphl (s : State) : Result :=
  .next ((s.setSp s.hl).advance .sphl)

end Sys2Proof.Machine
end

