-- ==== Sys2Proof/Machine/Dispatch.lean ====
section
/-! DEFINITION. One arm per constructor of Instr, each one call of the instruction's meaning: items 3 to 5 of
the step of R110, applied to a state whose `pc` is still the address of the opcode (log 16). -/

namespace Sys2Proof.Machine

def exec (i : Instr) (s : State) : Host.Outcome State Fault Refusal :=
  match i with
  | .movRR dst src => Sys2Proof.Machine.execMovRR dst src s
  | .movRM dst => Sys2Proof.Machine.execMovRM dst s
  | .movMR src => Sys2Proof.Machine.execMovMR src s
  | .mviR dst d8 => Sys2Proof.Machine.execMviR dst d8 s
  | .mviM d8 => Sys2Proof.Machine.execMviM d8 s
  | .lxi pr d16 => Sys2Proof.Machine.execLxi pr d16 s
  | .lda a16 => Sys2Proof.Machine.execLda a16 s
  | .sta a16 => Sys2Proof.Machine.execSta a16 s
  | .lhld a16 => Sys2Proof.Machine.execLhld a16 s
  | .shld a16 => Sys2Proof.Machine.execShld a16 s
  | .ldax pr => Sys2Proof.Machine.execLdax pr s
  | .stax pr => Sys2Proof.Machine.execStax pr s
  | .xchg => Sys2Proof.Machine.execXchg s
  | .push pr => Sys2Proof.Machine.execPush pr s
  | .pushPsw => Sys2Proof.Machine.execPushPsw s
  | .pop pr => Sys2Proof.Machine.execPop pr s
  | .popPsw => Sys2Proof.Machine.execPopPsw s
  | .xthl => Sys2Proof.Machine.execXthl s
  | .sphl => Sys2Proof.Machine.execSphl s
  | .jmp a16 => Sys2Proof.Machine.execJmp a16 s
  | .jmpDup a16 => Sys2Proof.Machine.execJmpDup a16 s
  | .jnz a16 => Sys2Proof.Machine.execJnz a16 s
  | .jz a16 => Sys2Proof.Machine.execJz a16 s
  | .jnc a16 => Sys2Proof.Machine.execJnc a16 s
  | .jc a16 => Sys2Proof.Machine.execJc a16 s
  | .jpo a16 => Sys2Proof.Machine.execJpo a16 s
  | .jpe a16 => Sys2Proof.Machine.execJpe a16 s
  | .jp a16 => Sys2Proof.Machine.execJp a16 s
  | .jm a16 => Sys2Proof.Machine.execJm a16 s
  | .call a16 => Sys2Proof.Machine.execCall a16 s
  | .callDup p a16 => Sys2Proof.Machine.execCallDup p a16 s
  | .cnz a16 => Sys2Proof.Machine.execCnz a16 s
  | .cz a16 => Sys2Proof.Machine.execCz a16 s
  | .cnc a16 => Sys2Proof.Machine.execCnc a16 s
  | .cc a16 => Sys2Proof.Machine.execCc a16 s
  | .cpo a16 => Sys2Proof.Machine.execCpo a16 s
  | .cpe a16 => Sys2Proof.Machine.execCpe a16 s
  | .cp a16 => Sys2Proof.Machine.execCp a16 s
  | .cm a16 => Sys2Proof.Machine.execCm a16 s
  | .ret => Sys2Proof.Machine.execRet s
  | .retDup => Sys2Proof.Machine.execRetDup s
  | .rnz => Sys2Proof.Machine.execRnz s
  | .rz => Sys2Proof.Machine.execRz s
  | .rnc => Sys2Proof.Machine.execRnc s
  | .rc => Sys2Proof.Machine.execRc s
  | .rpo => Sys2Proof.Machine.execRpo s
  | .rpe => Sys2Proof.Machine.execRpe s
  | .rp => Sys2Proof.Machine.execRp s
  | .rm => Sys2Proof.Machine.execRm s
  | .rst n => Sys2Proof.Machine.execRst n s
  | .pchl => Sys2Proof.Machine.execPchl s
  | .inrR r => Sys2Proof.Machine.execInrR r s
  | .inrM => Sys2Proof.Machine.execInrM s
  | .dcrR r => Sys2Proof.Machine.execDcrR r s
  | .dcrM => Sys2Proof.Machine.execDcrM s
  | .inx pr => Sys2Proof.Machine.execInx pr s
  | .dcx pr => Sys2Proof.Machine.execDcx pr s
  | .add src => Sys2Proof.Machine.execAdd src s
  | .adc src => Sys2Proof.Machine.execAdc src s
  | .sub src => Sys2Proof.Machine.execSub src s
  | .sbb src => Sys2Proof.Machine.execSbb src s
  | .adi d8 => Sys2Proof.Machine.execAdi d8 s
  | .aci d8 => Sys2Proof.Machine.execAci d8 s
  | .sui d8 => Sys2Proof.Machine.execSui d8 s
  | .sbi d8 => Sys2Proof.Machine.execSbi d8 s
  | .dad pr => Sys2Proof.Machine.execDad pr s
  | .ana src => Sys2Proof.Machine.execAna src s
  | .xra src => Sys2Proof.Machine.execXra src s
  | .ora src => Sys2Proof.Machine.execOra src s
  | .cmp src => Sys2Proof.Machine.execCmp src s
  | .ani d8 => Sys2Proof.Machine.execAni d8 s
  | .xri d8 => Sys2Proof.Machine.execXri d8 s
  | .ori d8 => Sys2Proof.Machine.execOri d8 s
  | .cpi d8 => Sys2Proof.Machine.execCpi d8 s
  | .rlc => Sys2Proof.Machine.execRlc s
  | .rrc => Sys2Proof.Machine.execRrc s
  | .ral => Sys2Proof.Machine.execRal s
  | .rar => Sys2Proof.Machine.execRar s
  | .cma => Sys2Proof.Machine.execCma s
  | .stc => Sys2Proof.Machine.execStc s
  | .cmc => Sys2Proof.Machine.execCmc s
  | .daa => Sys2Proof.Machine.execDaa s
  | .inp p8 => Sys2Proof.Machine.execInp p8 s
  | .out p8 => Sys2Proof.Machine.execOut p8 s
  | .ei => Sys2Proof.Machine.execEi s
  | .di => Sys2Proof.Machine.execDi s
  | .nop => Sys2Proof.Machine.execNop s
  | .nopDup n => Sys2Proof.Machine.execNopDup n s
  | .hlt => Sys2Proof.Machine.execHlt s

end Sys2Proof.Machine
end

