-- ==== Sys2Proof/Machine/Fetch.lean ====
section
/-! DEFINITION. The first half of a step: fetch, decode, resolve (spec/30_encoding.md R110 items 1 and 2), and
the placing of a word where the next step fetches. -/

namespace Sys2Proof.Machine

/-- The outputs of the step begin anew: they are of the step just made (R303). -/
def State.beginStep (s : State) : State := { s with out := StepOut.empty }

/-- The opcode byte and the resolved operand join the step's outputs (R303). -/
def State.noteFetch (s : State) (op : Byte) (r : Resolved) : State :=
  { s with out := { s.out with opcode := some op, operand := r } }

/-- The instruction of fetched bytes, and the state with its operand resolved. -/
def State.decoded (s : State) (op b2 b3 : Byte) : Instr × State :=
  let i := decodeOp op b2 b3
  (i, s.noteFetch op (s.resolve i.mode b2 b3))

/-- Fetch the opcode at `pc`, then as many operand bytes as its length has, in order (R73, R110). -/
def State.fetch (s : State) : Instr × State :=
  let f1 := s.beginStep.memRead s.pc
  match opLength f1.1 with
  | 1 => f1.2.decoded f1.1 0#8 0#8
  | 2 =>
    let f2 := f1.2.memRead (s.pc + 1#16)
    f2.2.decoded f1.1 f2.1 0#8
  | _ =>
    let f2 := f1.2.memRead (s.pc + 1#16)
    let f3 := f2.2.memRead (s.pc + 2#16)
    f3.2.decoded f1.1 f2.1 f3.1

/-- The host puts a byte into the memory device between steps, past the bus (R80, R300, R306). -/
def State.hostWrite (s : State) (a : Word) (v : Byte) : State := { s with mem := s.mem.write a.toNat v }

/-- The host puts bytes into the memory device from an address on. -/
def State.hostLoad (s : State) (a : Word) : List Byte → State
  | [] => s
  | v :: rest => (s.hostWrite a v).hostLoad (a + 1#16) rest

/-- A RAM is attached where the null device or a device of the platform stands at one of the three bytes from
`pc` on, and the core is not halted: what it takes for the next step to fetch there (log 12). -/
def State.fetchable (s : State) : State :=
  let held (a : Word) : Bool := s.memMap.kindAt a == .ram || s.memMap.kindAt a == .rom
  { s with
    halted := false
    memMap :=
      if held s.pc && held (s.pc + 1#16) && held (s.pc + 2#16) then s.memMap else MemMap.ram64k }

/-- The state whose next step fetches these bytes. -/
def State.placeAtPc (s : State) (bytes : List Byte) : State := s.fetchable.hostLoad s.pc bytes

end Sys2Proof.Machine
end

