-- ==== Sys2Proof/Machine/Step.lean ====
section
/-! DEFINITION. One step (spec/30_encoding.md R110). -/

namespace Sys2Proof.Machine

/-- The core's one transition (R110): fetch, decode, resolve, execute. While halted, a requested step does
nothing: no fetch, no cycles, no state change (R248, R305, D27). -/
def step (s : State) : Host.Outcome State Fault Refusal :=
  if s.halted then .next s else exec s.fetch.1 s.fetch.2

/-- The state with an instruction of the opcode table stored where the next step fetches it (log 12). -/
def State.withFetchWord (s : State) (nbits w : Nat) : State := s.placeAtPc (tableBytes nbits w)

end Sys2Proof.Machine
end

