-- ==== Sys2Proof/Machine/Run.lean ====
section
/-! DEFINITION. A run, with the host's stop condition and a step budget (spec/70_reset_and_hazards.md R305). -/

namespace Sys2Proof.Machine

/-- The run ends at a state reached after `made` steps: the core is halted, or the host's condition holds (R305).
The condition sees the number of steps made, so that a host can say "after at least one step". -/
def runEnds (stop : Nat → State → Bool) (made : Nat) (s : State) : Bool := s.halted || stop made s

/-- The rest of a run of which `made` steps were made, with a budget of further steps. -/
def runFrom (stop : Nat → State → Bool) (made : Nat) : Nat → State → Result
  | 0, s => .next s
  | k + 1, s =>
    if runEnds stop made s then .next s
    else
      match step s with
      | .next t => runFrom stop (made + 1) k t
      | .fault r => .fault r
      | .refused r => .refused r

/-- The longest sequence of steps from the start state until the core is halted, the host's condition holds, or
the budget is spent, the start state among the states looked at (R305). -/
def runUntil (stop : Nat → State → Bool) (budget : Nat) (s : State) : Result := runFrom stop 0 budget s

end Sys2Proof.Machine
end

