-- ==== Sys2Proof/Machine/HostPort.lean ====
section
/-! DEFINITION. What the host does to the core between steps (spec/70_reset_and_hazards.md R290 to R303,
20_memory.md R61): the reset input, `set_pc`, attaching a device, and reading the outputs. None is part of a
step (R300, log 20). `State.hostWrite` and `State.hostLoad` of Machine/Fetch.lean are the host's writes. -/

namespace Sys2Proof.Machine

/-- The reset input (R292): the core's state becomes that of R50; the attached devices, their contents and
the parameters stay. The outputs of the last step are dropped (U12, log 21). -/
def State.resetInput (s : State) : State :=
  { s with
    regs := Regs.reset, pc := 0#16, sp := 0#16, flags := Flags.reset, cycles := 0#64,
    inte := false, halted := false, out := StepOut.empty }

/-- `set_pc(address)`: `pc` and nothing else (R297). -/
def State.hostSetPc (s : State) (a : Word) : State := s.setPc a

/-- A memory device is attached in place of the one before (R61). -/
def State.connectMem (s : State) (m : MemMap) (contents : Memory) : State :=
  { s with memMap := m, mem := contents }

/-- An I/O device is attached in place of the one before (R61); its record is empty. -/
def State.connectIo (s : State) (m : IoMap) : State := { s with ioMap := m, ioOut := [] }

/-- The observation outputs (R303); `inte` and `halted` are among them (D22). -/
structure Snapshot where
  opcode : Option Byte
  operand : Resolved
  pc : Word
  regs : Regs
  flags : Flags
  status : Byte
  sp : Word
  cycles : BitVec 64
  inte : Bool
  halted : Bool
  deriving DecidableEq, Repr

/-- Reading the outputs: it changes nothing and makes no bus transaction (R303). -/
def State.snapshot (s : State) : Snapshot :=
  { opcode := s.out.opcode, operand := s.out.operand, pc := s.pc, regs := s.regs, flags := s.flags,
    status := s.status, sp := s.sp, cycles := s.cycles, inte := s.inte, halted := s.halted }

end Sys2Proof.Machine
end

