-- ==== Sys2Proof/Safety.lean ====
section
/-! DEFINITION. What claims call a safe state and a safe step, and the words the claims are written in: what a
step keeps, how it ends, what it stores, and the arithmetic of flags over the natural numbers. -/

namespace Sys2Proof.Machine

/-! ## Safe states and steps -/

/-- The invariant of the model: the memory device's contents are in canonical form and the parameters are
such as R7 allows. Every other field of State holds only meaningful values by its type; the fixed bits of
the status byte hold by the way it is assembled (R29). -/
def State.Inv (s : State) : Prop := s.mem.wf = true ∧ s.cfg.wf = true

/-- The step answers a next state: neither a fault nor a refusal (R260). -/
def Completes (o : Host.Outcome State Fault Refusal) : Prop := ∃ t, o = .next t

/-! ## What an instruction leaves unchanged -/

/-- A piece of the state a frame speaks of: all but `pc`, `cycles`, the bytes of memory and the step's
outputs. -/
inductive Piece where
  | reg (r : Reg)
  | s | z | ac | p | cy
  | sp | inte | halted | cfg | memMap | ioMap | ioOut
  deriving DecidableEq, Repr

/-- The piece is the same in two states. -/
def Piece.same (s t : State) : Piece → Prop
  | .reg r => t.reg r = s.reg r
  | .s => t.flags.s = s.flags.s
  | .z => t.flags.z = s.flags.z
  | .ac => t.flags.ac = s.flags.ac
  | .p => t.flags.p = s.flags.p
  | .cy => t.flags.cy = s.flags.cy
  | .sp => t.sp = s.sp
  | .inte => t.inte = s.inte
  | .halted => t.halted = s.halted
  | .cfg => t.cfg = s.cfg
  | .memMap => t.memMap = s.memMap
  | .ioMap => t.ioMap = s.ioMap
  | .ioOut => t.ioOut = s.ioOut

/-- The seven registers in the order of their codes (R93). -/
def allRegs : List Reg := [.b, .c, .d, .e, .h, .l, .a]

/-- The eight operands in the order of their codes (R93). -/
def allOperands : List Operand8 :=
  [.reg .b, .reg .c, .reg .d, .reg .e, .reg .h, .reg .l, .m, .reg .a]

/-- The pairs and `sp` in the order of their codes (R94). -/
def allRps : List Rp := [.bc, .de, .hl, .sp]

/-- The five flags. -/
def allFlags : List Piece := [.s, .z, .ac, .p, .cy]

end Sys2Proof.Machine

namespace Sys2Proof

open Machine

/-- The two registers of a pair. -/
def Pair.pieces : Pair → List Piece
  | .bc => [.reg .b, .reg .c]
  | .de => [.reg .d, .reg .e]
  | .hl => [.reg .h, .reg .l]

/-- What a write of a pair or of `sp` writes. -/
def Rp.pieces : Rp → List Piece
  | .bc => [.reg .b, .reg .c]
  | .de => [.reg .d, .reg .e]
  | .hl => [.reg .h, .reg .l]
  | .sp => [.sp]

end Sys2Proof

namespace Sys2Proof.Machine

/-- From `s` to `t` every piece but those of `changed` is the same, and every byte of the memory device but
those at the addresses `stored` reads as before. -/
structure Keeps (s t : State) (changed : List Piece) (stored : List Word) : Prop where
  pieces : ∀ x, x ∉ changed → Piece.same s t x
  bytes : ∀ a, a ∉ stored → t.cell a = s.cell a

/-- How an operation ended: `pc` afterwards, the cycles charged (modulo 2^64), the bus transactions it made,
in order; the outputs of the fetch stay. -/
structure Ran (s t : State) (pc : Word) (cost : Nat) (events : List BusEvent) : Prop where
  pc : t.pc = pc
  cycles : t.cycles = s.cycles + BitVec.ofNat 64 cost
  bus : t.out.bus = s.out.bus ++ events
  count : t.busCount = s.busCount + events.length
  opcode : t.out.opcode = s.out.opcode
  operand : t.out.operand = s.out.operand

/-- What became of a byte written at an address: RAM holds it (in a memory of canonical form), anything else
holds what it held. -/
structure Stored (s t : State) (a : Word) (v : Byte) : Prop where
  ram : s.mem.wf = true → s.memMap.kindAt a = .ram → t.cell a = v
  other : s.memMap.kindAt a ≠ .ram → t.cell a = s.cell a

/-! ## Operands -/

/-- The value of an 8-bit operand: the register, or what the memory device answers at HL. -/
def State.operand (s : State) : Operand8 → Byte
  | .reg r => s.reg r
  | .m => s.answer 0 s.hl

/-- The bus transactions that reading an 8-bit operand makes. -/
def State.operandEvents (s : State) : Operand8 → List BusEvent
  | .reg _ => []
  | .m => [.memRead s.hl (s.answer 0 s.hl)]

/-- The word at the top of the stack, as the memory device answers the next two transactions (R71). -/
def State.topWord (s : State) : Word :=
  if s.cfg.stackHiAtSp then mkWord (s.answer 0 s.sp) (s.answer 1 (s.sp + 1#16))
  else mkWord (s.answer 1 (s.sp + 1#16)) (s.answer 0 s.sp)

/-- The two reads of the top of the stack, the byte at `sp` first (R71). -/
def State.topEvents (s : State) : List BusEvent :=
  [.memRead s.sp (s.answer 0 s.sp), .memRead (s.sp + 1#16) (s.answer 1 (s.sp + 1#16))]

/-- The address of the high byte of a word whose stack slot begins at `base` (R68). -/
def State.hiSlot (s : State) (base : Word) : Word := if s.cfg.stackHiAtSp then base else base + 1#16

/-- The address of the low byte of a word whose stack slot begins at `base` (R68). -/
def State.loSlot (s : State) (base : Word) : Word := if s.cfg.stackHiAtSp then base + 1#16 else base

/-- From `s` to `t` a word was pushed: `sp` is 2 lower, its two bytes went to the slot that begins there
(R70). -/
structure Pushed (s t : State) (w : Word) : Prop where
  sp : t.sp = s.sp - 2#16
  high : Stored s t (s.hiSlot (s.sp - 2#16)) (hiByte w)
  low : Stored s t (s.loSlot (s.sp - 2#16)) (loByte w)

/-- The addresses of the two bytes a push writes. -/
def State.pushSlots (s : State) : List Word := [s.sp - 2#16, s.sp - 2#16 + 1#16]

/-- The two writes of a push, the high byte first (R70). -/
def State.pushEvents (s : State) (w : Word) : List BusEvent :=
  [.memWrite (s.hiSlot (s.sp - 2#16)) (hiByte w), .memWrite (s.loSlot (s.sp - 2#16)) (loByte w)]

end Sys2Proof.Machine

namespace Sys2Proof

open Machine

/-- The conditional jump, call and return of a condition (R151, R153, R155). -/
def Cond.jumpInstr : Cond → Word → Instr
  | .nz => .jnz
  | .z => .jz
  | .nc => .jnc
  | .c => .jc
  | .po => .jpo
  | .pe => .jpe
  | .p => .jp
  | .m => .jm

/-- See `Cond.jumpInstr`. -/
def Cond.callInstr : Cond → Word → Instr
  | .nz => .cnz
  | .z => .cz
  | .nc => .cnc
  | .c => .cc
  | .po => .cpo
  | .pe => .cpe
  | .p => .cp
  | .m => .cm

/-- See `Cond.jumpInstr`. -/
def Cond.retInstr : Cond → Instr
  | .nz => .rnz
  | .z => .rz
  | .nc => .rnc
  | .c => .rc
  | .po => .rpo
  | .pe => .rpe
  | .p => .rp
  | .m => .rm

end Sys2Proof

namespace Sys2Proof.Machine

/-! ## Flags over the natural numbers -/

/-- S, Z and P describe a byte (R31 to R33). -/
structure Describes (f : Flags) (v : Byte) : Prop where
  sign : f.s = decide (128 ≤ v.toNat)
  zero : f.z = decide (v.toNat = 0)
  parity : f.p = decide (((List.range 8).filter fun k => v.getLsbD k).length % 2 = 0)

/-- A bit as a number. -/
def bitNat (b : Bool) : Nat := if b then 1 else 0

/-- `v` and `f` are the sum of `a`, `b` and a carry and its five flags (R34, R35, R180). -/
structure IsSum (a b : Byte) (cin : Bool) (v : Byte) (f : Flags) : Prop where
  value : v.toNat = (a.toNat + b.toNat + bitNat cin) % 256
  carry : f.cy = decide (256 ≤ a.toNat + b.toNat + bitNat cin)
  aux : f.ac = decide (16 ≤ a.toNat % 16 + b.toNat % 16 + bitNat cin)
  rest : Describes f v

/-- AC of a subtraction, by `SUB_AUX_MODE`: no borrow from, or borrow out of, the low nibble (R35). -/
def subAux (mode : SubAuxMode) (a b : Byte) (bin : Bool) : Bool :=
  match mode with
  | .i8080 => decide (b.toNat % 16 + bitNat bin ≤ a.toNat % 16)
  | .borrow => decide (a.toNat % 16 < b.toNat % 16 + bitNat bin)

/-- `v` and `f` are the difference of `a`, `b` and a borrow and its five flags (R34, R35, R180). -/
structure IsDifference (mode : SubAuxMode) (a b : Byte) (bin : Bool) (v : Byte) (f : Flags) : Prop where
  value : v.toNat = (a.toNat + 512 - b.toNat - bitNat bin) % 256
  carry : f.cy = decide (a.toNat < b.toNat + bitNat bin)
  aux : f.ac = subAux mode a b bin
  rest : Describes f v

/-- `v` and `f` are the result and the flags of a bitwise operation (R200). -/
structure IsBitwise (v : Byte) (aux : Bool) (f : Flags) : Prop where
  carry : f.cy = false
  aux : f.ac = aux
  rest : Describes f v

end Sys2Proof.Machine

namespace Sys2Proof

open Machine

/-! ## Tables of the spec -/

/-- The flags each instruction writes: the table of R38, row by row. -/
def Instr.flagsWritten : Instr → List Piece
  | .add _ | .adi _ | .sub _ | .sui _ | .cmp _ | .cpi _ => allFlags
  | .adc _ | .aci _ | .sbb _ | .sbi _ => allFlags
  | .ana _ | .ani _ => allFlags
  | .xra _ | .xri _ | .ora _ | .ori _ => allFlags
  | .inrR _ | .inrM | .dcrR _ | .dcrM => [.s, .z, .ac, .p]
  | .dad _ => [.cy]
  | .rlc | .rrc => [.cy]
  | .ral | .rar => [.cy]
  | .stc => [.cy]
  | .cmc => [.cy]
  | .daa => allFlags
  | .popPsw => allFlags
  | .pushPsw => []
  | .jnz _ | .jz _ | .jnc _ | .jc _ | .jpo _ | .jpe _ | .jp _ | .jm _ => []
  | .cnz _ | .cz _ | .cnc _ | .cc _ | .cpo _ | .cpe _ | .cp _ | .cm _ => []
  | .rnz | .rz | .rnc | .rc | .rpo | .rpe | .rp | .rm => []
  | .movRR _ _ | .movRM _ | .movMR _ | .mviR _ _ | .mviM _ | .lxi _ _ | .lda _ | .sta _ | .lhld _
  | .shld _ | .ldax _ | .stax _ | .xchg | .push _ | .pop _ | .xthl | .sphl | .pchl | .jmp _ | .jmpDup _
  | .call _ | .callDup _ _ | .ret | .retDup | .rst _ | .inx _ | .dcx _ | .cma | .inp _ | .out _ | .ei
  | .di | .nop | .nopDup _ | .hlt => []

/-- The condition of a conditional transfer (R95). -/
def Instr.condition : Instr → Option Cond
  | .movRR _ _ => none
  | .movRM _ => none
  | .movMR _ => none
  | .mviR _ _ => none
  | .mviM _ => none
  | .lxi _ _ => none
  | .lda _ => none
  | .sta _ => none
  | .lhld _ => none
  | .shld _ => none
  | .ldax _ => none
  | .stax _ => none
  | .xchg => none
  | .push _ => none
  | .pushPsw => none
  | .pop _ => none
  | .popPsw => none
  | .xthl => none
  | .sphl => none
  | .jmp _ => none
  | .jmpDup _ => none
  | .jnz _ => some .nz
  | .jz _ => some .z
  | .jnc _ => some .nc
  | .jc _ => some .c
  | .jpo _ => some .po
  | .jpe _ => some .pe
  | .jp _ => some .p
  | .jm _ => some .m
  | .call _ => none
  | .callDup _ _ => none
  | .cnz _ => some .nz
  | .cz _ => some .z
  | .cnc _ => some .nc
  | .cc _ => some .c
  | .cpo _ => some .po
  | .cpe _ => some .pe
  | .cp _ => some .p
  | .cm _ => some .m
  | .ret => none
  | .retDup => none
  | .rnz => some .nz
  | .rz => some .z
  | .rnc => some .nc
  | .rc => some .c
  | .rpo => some .po
  | .rpe => some .pe
  | .rp => some .p
  | .rm => some .m
  | .rst _ => none
  | .pchl => none
  | .inrR _ => none
  | .inrM => none
  | .dcrR _ => none
  | .dcrM => none
  | .inx _ => none
  | .dcx _ => none
  | .add _ => none
  | .adc _ => none
  | .sub _ => none
  | .sbb _ => none
  | .adi _ => none
  | .aci _ => none
  | .sui _ => none
  | .sbi _ => none
  | .dad _ => none
  | .ana _ => none
  | .xra _ => none
  | .ora _ => none
  | .cmp _ => none
  | .ani _ => none
  | .xri _ => none
  | .ori _ => none
  | .cpi _ => none
  | .rlc => none
  | .rrc => none
  | .ral => none
  | .rar => none
  | .cma => none
  | .stc => none
  | .cmc => none
  | .daa => none
  | .inp _ => none
  | .out _ => none
  | .ei => none
  | .di => none
  | .nop => none
  | .nopDup _ => none
  | .hlt => none

/-- `taken` of the step rule: a conditional transfer whose condition holds (R110 item 3). -/
def Instr.taken (i : Instr) (f : Flags) : Bool :=
  match i.condition with
  | some cond => f.holds cond
  | none => false

/-- Data reads, data writes and I/O transactions of an instruction: the columns R, W and IO of the table of
R74, row by row. -/
def Instr.traffic (taken : Bool) : Instr → Nat × Nat × Nat
  | .movRR _ _ | .xchg | .sphl | .pchl | .inx _ | .dcx _ | .dad _ | .inrR _ | .dcrR _ | .rlc | .rrc | .ral
  | .rar | .cma | .stc | .cmc | .daa | .ei | .di | .nop | .nopDup _ | .hlt => (0, 0, 0)
  | .add (.reg _) | .adc (.reg _) | .sub (.reg _) | .sbb (.reg _) | .ana (.reg _) | .xra (.reg _)
  | .ora (.reg _) | .cmp (.reg _) => (0, 0, 0)
  | .movRM _ | .ldax _ => (1, 0, 0)
  | .add .m | .adc .m | .sub .m | .sbb .m | .ana .m | .xra .m | .ora .m | .cmp .m => (1, 0, 0)
  | .movMR _ | .stax _ => (0, 1, 0)
  | .inrM | .dcrM => (1, 1, 0)
  | .mviR _ _ | .adi _ | .aci _ | .sui _ | .sbi _ | .ani _ | .xri _ | .ori _ | .cpi _ => (0, 0, 0)
  | .mviM _ => (0, 1, 0)
  | .inp _ | .out _ => (0, 0, 1)
  | .lxi _ _ | .jmp _ | .jmpDup _ => (0, 0, 0)
  | .jnz _ | .jz _ | .jnc _ | .jc _ | .jpo _ | .jpe _ | .jp _ | .jm _ => (0, 0, 0)
  | .lda _ => (1, 0, 0)
  | .sta _ => (0, 1, 0)
  | .lhld _ => (2, 0, 0)
  | .shld _ => (0, 2, 0)
  | .push _ | .pushPsw => (0, 2, 0)
  | .pop _ | .popPsw | .ret | .retDup => (2, 0, 0)
  | .rnz | .rz | .rnc | .rc | .rpo | .rpe | .rp | .rm => if taken then (2, 0, 0) else (0, 0, 0)
  | .xthl => (2, 2, 0)
  | .call _ | .callDup _ _ => (0, 2, 0)
  | .cnz _ | .cz _ | .cnc _ | .cc _ | .cpo _ | .cpe _ | .cp _ | .cm _ =>
    if taken then (0, 2, 0) else (0, 0, 0)
  | .rst _ => (0, 2, 0)

end Sys2Proof

namespace Sys2Proof.Machine

/-- A read of the memory bus. -/
def BusEvent.isMemRead : BusEvent → Bool
  | .memRead _ _ => true
  | .memWrite _ _ => false
  | .ioRead _ _ => false
  | .ioWrite _ _ => false

/-- A write of the memory bus. -/
def BusEvent.isMemWrite : BusEvent → Bool
  | .memRead _ _ => false
  | .memWrite _ _ => true
  | .ioRead _ _ => false
  | .ioWrite _ _ => false

/-- A transaction of the I/O bus. -/
def BusEvent.isIo : BusEvent → Bool
  | .memRead _ _ => false
  | .memWrite _ _ => false
  | .ioRead _ _ => true
  | .ioWrite _ _ => true

/-- Two states that differ at most in the cycle counter and the interrupt-enable state. -/
structure AgreeButCyclesInte (s t : State) : Prop where
  same : t = { s with cycles := t.cycles, inte := t.inte }

/-- The packed BCD of a number below 100. -/
def packedBcd (n : Nat) : Byte := BitVec.ofNat 8 (n / 10 * 16 + n % 10)

end Sys2Proof.Machine
end

