-- ==== Sys2Proof/Certificates/Slice0/Obligations.lean ====
section
/-! DEFINITION. The statements for the provers. `exec i s` is items 3 to 5 of the step rule R110 on a state
whose `pc` is the address of the opcode (log 16); the parameters of R7 are in `s.cfg` and `s.memMap`,
`s.ioMap`, so every statement holds for every value of them. -/

open Sys2Proof Sys2Proof.Machine

/-! ## Encoding -/

/-- Decoding the encoding of a well-formed instruction gives it back, with every operand, whatever follows.
The opcode map is the spec's own decision D2. -/
def Obligations.DecodeOfEncodeGivesInstructionBack : Prop :=
  ∀ (i : Instr) (rest : List Byte), i.wf = true → decode (encode i ++ rest) = .ok (i, rest)

/-- What decodes was the encoding of the instruction read, followed by the bytes left, and that instruction
is well formed: no two instructions share an encoding and no bit is dropped. The opcode map is the spec's
own decision D2. -/
def Obligations.EncodeOfDecodeGivesBytesBack : Prop :=
  ∀ (bytes rest : List Byte) (i : Instr),
    decode bytes = .ok (i, rest) → i.wf = true ∧ encode i ++ rest = bytes

/-- Words written out from the encoding lines of R120 to R248, one of each family, decode to the instruction
they stand for. The opcode map is the spec's own decision D2. -/
def Obligations.WrittenOutWordsDecode : Prop :=
  decode [0b01000001#8] = .ok (.movRR .b .c, []) ∧
  decode [0b00100001#8, 0x34#8, 0x12#8] = .ok (.lxi .hl 0x1234#16, []) ∧
  decode [0b11110101#8] = .ok (.pushPsw, []) ∧
  decode [0b11000010#8, 0x50#8, 0x01#8] = .ok (.jnz 0x0150#16, []) ∧
  decode [0b11111111#8] = .ok (.rst 7#3, []) ∧
  decode [0b00110101#8] = .ok (.dcrM, []) ∧
  decode [0b10011101#8] = .ok (.sbb (.reg .l), []) ∧
  decode [0b11111110#8, 0x40#8] = .ok (.cpi 0x40#8, []) ∧
  decode [0b00011111#8] = .ok (.rar, []) ∧
  decode [0b00100111#8] = .ok (.daa, []) ∧
  decode [0b11011011#8, 0x10#8] = .ok (.inp 0x10#8, []) ∧
  decode [0b01110110#8] = .ok (.hlt, []) ∧
  decode [0b11011101#8, 0x00#8, 0x20#8] = .ok (.callDup 1#2 0x2000#16, [])

/-- The opcode table is total: every byte has a descriptor with a non-empty mnemonic and, for parameters
such as R7 allows, a strictly positive base cycle count. What the parameters may be is log 3. -/
def Obligations.OpcodeTableIsTotal : Prop :=
  ∀ (cfg : Config) (op : Byte), cfg.wf = true →
    (opTable cfg op).mnemonic ≠ "" ∧ 0 < (opTable cfg op).base

/-- The length and the instruction follow from the opcode byte: an opcode followed by enough bytes decodes,
whatever the bytes, to an instruction of that opcode, 1, 2 or 3 bytes long by the opcode alone; there are
208, 18 and 30 opcodes of these lengths. The opcode map, and so the three counts, are the spec's own
decisions D2 to D4. -/
def Obligations.OpcodeAloneGivesLength : Prop :=
  (∀ (op b2 b3 : Byte),
    (decodeOp op b2 b3).opcode = op ∧ (decodeOp op b2 b3).length = opLength op ∧
    (opLength op = 1 ∨ opLength op = 2 ∨ opLength op = 3) ∧
    (encode (decodeOp op b2 b3)).length = opLength op) ∧
  ((List.range 256).filter fun n => opLength (BitVec.ofNat 8 n) = 1).length = 208 ∧
  ((List.range 256).filter fun n => opLength (BitVec.ofNat 8 n) = 2).length = 18 ∧
  ((List.range 256).filter fun n => opLength (BitVec.ofNat 8 n) = 3).length = 30

/-! ## The step -/

/-- A step of a core that is not halted runs the instruction that the three bytes at `pc` decode to, on the
same state but for the record of the fetch: its bytes were read, in order and once each, and the opcode and
the resolved operand are outputs. The order of the fetch is the spec's decision D15, the form of the outputs
D22, D23 and log 10. -/
def Obligations.StepRunsDecodedInstruction : Prop :=
  ∀ (s : State) (i : Instr) (rest : List Byte),
    s.halted = false →
    decode [s.answer 0 s.pc, s.answer 1 (s.pc + 1#16), s.answer 2 (s.pc + 2#16)] = .ok (i, rest) →
    step s = exec i { s with
      busCount := s.busCount + i.length
      out :=
        { opcode := some (s.answer 0 s.pc)
          operand := s.resolve i.mode (s.answer 1 (s.pc + 1#16)) (s.answer 2 (s.pc + 2#16))
          bus := [BusEvent.memRead s.pc (s.answer 0 s.pc),
            .memRead (s.pc + 1#16) (s.answer 1 (s.pc + 1#16)),
            .memRead (s.pc + 2#16) (s.answer 2 (s.pc + 2#16))].take i.length } }

/-- While halted, a requested step changes nothing. This is the spec's own decision D27. -/
def Obligations.HaltedStepDoesNothing : Prop :=
  ∀ s : State, s.halted = true → step s = .next s

/-- The step is total and cannot fault: for every state it answers a next state, and so does every
instruction executed on its own; the set of exception causes is empty (R260). -/
def Obligations.StepAlwaysAnswersNext : Prop :=
  (∀ s : State, Completes (step s)) ∧ (∀ (i : Instr) (s : State), Completes (exec i s)) ∧
  IsEmpty Fault

/-- The invariant is kept by every step: memory stays in canonical form, the parameters stay allowed. The
canonical form is the model's own (log 4, 5). -/
def Obligations.StepKeepsInvariant : Prop :=
  ∀ s t : State, s.Inv → step s = .next t → t.Inv

/-- The invariant holds of the state at power-on. The canonical form is the model's own (log 4, 5). -/
def Obligations.ResetHoldsInvariant : Prop := State.reset.Inv

/-- The state at power-on: registers, `pc`, `sp` and `cycles` 0, `F = 0x02`, not halted, `inte` 0. The value
of `inte` and `halted` are the spec's decisions D11 and D12. That power-on equals reset is the spec's
decision D19. -/
def Obligations.PowerOnState : Prop :=
  (∀ r, State.reset.reg r = 0#8) ∧ State.reset.pc = 0#16 ∧ State.reset.sp = 0#16 ∧
  State.reset.flags = ⟨false, false, false, false, false⟩ ∧ State.reset.status = 0x02#8 ∧
  State.reset.cycles = 0#64 ∧ State.reset.inte = false ∧ State.reset.halted = false

/-- The reset input gives the core its reset state and leaves what is attached alone; `set_pc` writes `pc`
and nothing else. The reset values of `inte` and `halted` and `set_pc` while halted are the spec's decisions
D11, D12, D28; what becomes of the model's own fields is log 21. -/
def Obligations.ResetAndSetPcInputs : Prop :=
  ∀ (s : State) (a : Word),
    ((∀ r, s.resetInput.reg r = 0#8) ∧ s.resetInput.status = 0x02#8 ∧ s.resetInput.pc = 0#16 ∧
      s.resetInput.sp = 0#16 ∧ s.resetInput.cycles = 0#64 ∧ s.resetInput.inte = false ∧
      s.resetInput.halted = false ∧ s.resetInput.memMap = s.memMap ∧ s.resetInput.mem = s.mem ∧
      s.resetInput.ioMap = s.ioMap ∧ s.resetInput.ioOut = s.ioOut ∧
      s.resetInput.busCount = s.busCount ∧ s.resetInput.cfg = s.cfg) ∧
    s.hostSetPc a = { s with pc := a }

/-! ## Rules of the whole machine -/

/-- An instruction leaves every flag alone that the table of R38 does not let it write. -/
def Obligations.FlagsWrittenAsTable : Prop :=
  ∀ (i : Instr) (s t : State), exec i s = .next t →
    ∀ f ∈ allFlags, f ∉ i.flagsWritten → Piece.same s t f

/-- `inte` is written by EI and DI only; `halted` is set by HLT only and cleared by no instruction. The two
state bits are the spec's decisions D11 and D12. -/
def Obligations.InteAndHaltedWriters : Prop :=
  ∀ (i : Instr) (s t : State), exec i s = .next t →
    t.inte = (if i = .ei then true else if i = .di then false else s.inte) ∧
    t.halted = (if i = .hlt then true else s.halted)

/-- Nothing in the core reads `inte`, and no instruction reads `cycles`: two states that differ in nothing
else take steps to two states that differ in nothing else. The interrupt-enable state is the spec's decision
D12. -/
def Obligations.InteAndCyclesUnseen : Prop :=
  ∀ s s' t : State, AgreeButCyclesInte s s' → step s = .next t →
    ∃ t', step s' = .next t' ∧ AgreeButCyclesInte t t'

/-- A step stores in RAM only: every byte the memory device holds anywhere else is as before; and a step
changes neither what is attached nor the parameters. The kinds of device are the model's form of the
parameter MEM (log 4). -/
def Obligations.StepStoresOnlyInRam : Prop :=
  ∀ s t : State, step s = .next t →
    (∀ a, s.memMap.kindAt a ≠ .ram → t.cell a = s.cell a) ∧
    t.memMap = s.memMap ∧ t.ioMap = s.ioMap ∧ t.cfg = s.cfg

/-- A step makes exactly the bus transactions of the table of R74: as many instruction-fetch and data reads,
data writes and I/O transactions as the row of its instruction says, the fetch reads first and in order. The
order is the spec's decision D15, the one I/O transaction of IN and OUT D24. -/
def Obligations.BusTransactionsAsTable : Prop :=
  ∀ s t : State, s.halted = false → step s = .next t →
    let i := s.fetch.1
    let n := i.traffic (i.taken s.flags)
    (t.out.bus.filter BusEvent.isMemRead).length = i.length + n.1 ∧
    (t.out.bus.filter BusEvent.isMemWrite).length = n.2.1 ∧
    (t.out.bus.filter BusEvent.isIo).length = n.2.2 ∧
    t.busCount = s.busCount + t.out.bus.length ∧
    t.out.bus.take i.length =
      [BusEvent.memRead s.pc (s.answer 0 s.pc),
        .memRead (s.pc + 1#16) (s.answer 1 (s.pc + 1#16)),
        .memRead (s.pc + 2#16) (s.answer 2 (s.pc + 2#16))].take i.length

/-- Every step adds the base cycle count of the opcode it fetched, and the extra count when the instruction
is a conditional transfer whose condition holds, modulo 2^64. The counts are the spec's parameters (D13),
the wrap its decision D14. -/
def Obligations.CycleCounterCharges : Prop :=
  ∀ s t : State, s.halted = false → step s = .next t →
    t.cycles = s.cycles + BitVec.ofNat 64 (s.cfg.baseCycles (s.answer 0 s.pc) +
      (if s.fetch.1.taken s.flags then s.cfg.extraCycles (s.answer 0 s.pc) else 0))

/-- The default cycle counts, by instruction. The counts are the spec's decision D13, its general knowledge
G2. -/
def Obligations.DefaultCyclesByInstruction : Prop :=
  (∀ r q, defaultCycles (Instr.movRR r q).opcode = 5) ∧
  (∀ r, defaultCycles (Instr.movRM r).opcode = 7 ∧ defaultCycles (Instr.movMR r).opcode = 7) ∧
  (∀ r v, defaultCycles (Instr.mviR r v).opcode = 7 ∧ defaultCycles (Instr.mviM v).opcode = 10) ∧
  (∀ pr w, defaultCycles (Instr.lxi pr w).opcode = 10 ∧ defaultCycles (Instr.inx pr).opcode = 5 ∧
    defaultCycles (Instr.dcx pr).opcode = 5 ∧ defaultCycles (Instr.dad pr).opcode = 10) ∧
  (∀ pr, defaultCycles (Instr.stax pr).opcode = 7 ∧ defaultCycles (Instr.ldax pr).opcode = 7) ∧
  (∀ w, defaultCycles (Instr.shld w).opcode = 16 ∧ defaultCycles (Instr.lhld w).opcode = 16 ∧
    defaultCycles (Instr.sta w).opcode = 13 ∧ defaultCycles (Instr.lda w).opcode = 13) ∧
  (∀ r, defaultCycles (Instr.inrR r).opcode = 5 ∧ defaultCycles (Instr.dcrR r).opcode = 5) ∧
  (∀ i ∈ [Instr.inrM, .dcrM], defaultCycles i.opcode = 10) ∧
  (∀ i ∈ [Instr.rlc, .rrc, .ral, .rar, .daa, .cma, .stc, .cmc, .nop, .xchg, .di, .ei],
    defaultCycles i.opcode = 4) ∧
  (∀ i ∈ [Instr.pchl, .sphl], defaultCycles i.opcode = 5) ∧
  defaultCycles Instr.hlt.opcode = 7 ∧ defaultCycles Instr.xthl.opcode = 18 ∧
  defaultCycles Instr.ret.opcode = 10 ∧
  (∀ f ∈ [Instr.add, .adc, .sub, .sbb, .ana, .xra, .ora, .cmp],
    (∀ r, defaultCycles (f (.reg r)).opcode = 4) ∧ defaultCycles (f .m).opcode = 7) ∧
  (∀ f ∈ [Instr.adi, .aci, .sui, .sbi, .ani, .xri, .ori, .cpi], ∀ v,
    defaultCycles (f v).opcode = 7) ∧
  (∀ f ∈ [Instr.inp, .out], ∀ v, defaultCycles (f v).opcode = 10) ∧
  (∀ pr, defaultCycles (Instr.pop pr).opcode = 10 ∧ defaultCycles (Instr.push pr).opcode = 11) ∧
  defaultCycles Instr.popPsw.opcode = 10 ∧ defaultCycles Instr.pushPsw.opcode = 11 ∧
  (∀ n, defaultCycles (Instr.rst n).opcode = 11) ∧
  (∀ w, defaultCycles (Instr.jmp w).opcode = 10 ∧ defaultCycles (Instr.call w).opcode = 17) ∧
  (∀ (cond : Cond) (w : Word),
    defaultCycles (cond.jumpInstr w).opcode = 10 ∧ defaultExtra (cond.jumpInstr w).opcode = 0 ∧
    defaultCycles (cond.callInstr w).opcode = 11 ∧ defaultExtra (cond.callInstr w).opcode = 6 ∧
    defaultCycles cond.retInstr.opcode = 5 ∧ defaultExtra cond.retInstr.opcode = 6) ∧
  ((List.range 256).map fun n => defaultCycles (BitVec.ofNat 8 n)).sum = 1653

/-- The undocumented opcodes act exactly as the encodings they duplicate, cycle count included. Which
opcodes duplicate which is the spec's decision D3. -/
def Obligations.DuplicatesActAsCanonical : Prop :=
  ∀ (s : State) (a : Word) (n : BitVec 3) (p : BitVec 2),
    exec (.nopDup n) s = exec .nop s ∧ exec (.jmpDup a) s = exec (.jmp a) s ∧
    exec .retDup s = exec .ret s ∧ exec (.callDup p a) s = exec (.call a) s

/-- Each condition reads one flag and compares it as the table of R95 says; none tests AC (R158). -/
def Obligations.ConditionsReadOneFlag : Prop :=
  ∀ f : Flags,
    (f.holds .nz = true ↔ f.z = false) ∧ (f.holds .z = true ↔ f.z = true) ∧
    (f.holds .nc = true ↔ f.cy = false) ∧ (f.holds .c = true ↔ f.cy = true) ∧
    (f.holds .po = true ↔ f.p = false) ∧ (f.holds .pe = true ↔ f.p = true) ∧
    (f.holds .p = true ↔ f.s = false) ∧ (f.holds .m = true ↔ f.s = true) ∧
    ∀ (cond : Cond) (b : Bool), ({ f with ac := b } : Flags).holds cond = f.holds cond

/-- The status byte: S, Z, AC, P and CY in bits 7, 6, 4, 2 and 0, bit 1 always 1, bits 3 and 5 always 0; a
write of a byte keeps its bits 7, 6, 4, 2 and 0. What becomes of bits 1, 3 and 5 of a written byte is the
spec's decision D31. -/
def Obligations.StatusByteLayout : Prop :=
  (∀ f : Flags,
    f.statusByte.getLsbD 7 = f.s ∧ f.statusByte.getLsbD 6 = f.z ∧ f.statusByte.getLsbD 5 = false ∧
    f.statusByte.getLsbD 4 = f.ac ∧ f.statusByte.getLsbD 3 = false ∧ f.statusByte.getLsbD 2 = f.p ∧
    f.statusByte.getLsbD 1 = true ∧ f.statusByte.getLsbD 0 = f.cy) ∧
  ∀ v : Byte, (Flags.ofStatusByte v).statusByte = (v &&& 0xD5#8) ||| 0x02#8

/-- Stack symmetry, for either byte order: a pushed pair popped into any pair gives that value and the old
`sp`, and a pushed PSW popped again gives back A and the flags, where RAM backs the two bytes. -/
def Obligations.PushThenPopRestores : Prop :=
  ∀ s : State, s.mem.wf = true → s.memMap.kindAt (s.sp - 2#16) = .ram →
    s.memMap.kindAt (s.sp - 2#16 + 1#16) = .ram →
    (∀ (p q : Pair) (t u : State), exec (.push p) s = .next t → exec (.pop q) t = .next u →
      u.pair q = s.pair p ∧ u.sp = s.sp) ∧
    (∀ t u : State, exec .pushPsw s = .next t → exec .popPsw t = .next u →
      u.reg .a = s.reg .a ∧ u.flags = s.flags ∧ u.sp = s.sp)

/-- A return after a call goes to the instruction after the call, with the old `sp`, for either byte order,
where RAM backs the two bytes. -/
def Obligations.CallThenRetReturns : Prop :=
  ∀ (s t u : State) (a : Word), s.mem.wf = true → s.memMap.kindAt (s.sp - 2#16) = .ram →
    s.memMap.kindAt (s.sp - 2#16 + 1#16) = .ram →
    exec (.call a) s = .next t → exec .ret t = .next u →
    t.pc = a ∧ u.pc = s.pc + 3#16 ∧ u.sp = s.sp

/-- XTHL equals POP into a temporary, PUSH H, move the temporary to HL: same HL, same `sp`, same memory. -/
def Obligations.XthlIsPopThenPush : Prop :=
  ∀ s t u v : State, s.mem.wf = true → exec .xthl s = .next t → exec (.pop .de) s = .next u →
    exec (.push .hl) u = .next v →
    t.pair .hl = v.pair .de ∧ t.sp = v.sp ∧ ∀ a, t.cell a = v.cell a

/-- RAL then RAR and RAR then RAL restore A and CY; two XCHG, two CMA, two CMC restore what they change. The
directions of the rotates are the spec's decision D18. -/
def Obligations.InversePairsRestore : Prop :=
  ∀ s t u : State,
    (exec .ral s = .next t → exec .rar t = .next u → u.regs = s.regs ∧ u.flags = s.flags) ∧
    (exec .rar s = .next t → exec .ral t = .next u → u.regs = s.regs ∧ u.flags = s.flags) ∧
    (exec .xchg s = .next t → exec .xchg t = .next u → u.regs = s.regs) ∧
    (exec .cma s = .next t → exec .cma t = .next u → u.regs = s.regs) ∧
    (exec .cmc s = .next t → exec .cmc t = .next u → u.flags = s.flags)

/-- The two values of `SUB_AUX_MODE` give complementary AC after every subtraction, comparison and
decrement, and nothing else differs. The parameter is the spec's decision D8. -/
def Obligations.SubAuxModesDifferInAcOnly : Prop :=
  ∀ (i : Instr) (s t u : State),
    ((∃ src, i = .sub src ∨ i = .sbb src ∨ i = .cmp src) ∨
      (∃ v, i = .sui v ∨ i = .sbi v ∨ i = .cpi v) ∨ (∃ r, i = .dcrR r) ∨ i = .dcrM) →
    exec i { s with cfg := { s.cfg with subAuxMode := .i8080 } } = .next t →
    exec i { s with cfg := { s.cfg with subAuxMode := .borrow } } = .next u →
    u = { t with
      cfg := { s.cfg with subAuxMode := .borrow }
      flags := { t.flags with ac := !t.flags.ac } }

/-- Decimal addition: for packed-BCD numbers `x`, `y` below 100 and a carry, ACI `y` on `x` followed by DAA
leaves the packed BCD of their sum modulo 100 and CY exactly when the sum is 100 or more. The details of DAA
are the spec's decision D10; that they make a decimal sum is inferred here. -/
def Obligations.DaaAfterAciGivesDecimalSum : Prop :=
  ∀ (x y : Nat) (s t u : State), x < 100 → y < 100 → s.reg .a = packedBcd x →
    exec (.aci (packedBcd y)) s = .next t → exec .daa t = .next u →
    u.reg .a = packedBcd ((x + y + bitNat s.flags.cy) % 100) ∧
    u.flags.cy = decide (100 ≤ x + y + bitNat s.flags.cy)

/-! ## Data transfer -/

/-- MOV r,r and MVI r complete: the destination is written, nothing else. -/
def Obligations.MovAndMviWriteRegister : Prop :=
  ∀ (s : State) (dst : Reg),
    (∀ src, ∃ t, exec (.movRR dst src) s = .next t ∧ t.reg dst = s.reg src ∧
      Keeps s t [.reg dst] [] ∧
      Ran s t (s.pc + 1#16) (s.cfg.baseCycles (Instr.movRR dst src).opcode) []) ∧
    (∀ v, ∃ t, exec (.mviR dst v) s = .next t ∧ t.reg dst = v ∧ Keeps s t [.reg dst] [] ∧
      Ran s t (s.pc + 2#16) (s.cfg.baseCycles (Instr.mviR dst v).opcode) [])

/-- MOV r,M, LDA and LDAX complete: the register receives what the memory device answers at HL (as it was),
at the direct address, at BC or DE; one read, nothing else changes. -/
def Obligations.LoadsReadOneByte : Prop :=
  ∀ s : State,
    (∀ dst, ∃ t, exec (.movRM dst) s = .next t ∧ t.reg dst = s.answer 0 s.hl ∧
      Keeps s t [.reg dst] [] ∧
      Ran s t (s.pc + 1#16) (s.cfg.baseCycles (Instr.movRM dst).opcode)
        [.memRead s.hl (s.answer 0 s.hl)]) ∧
    (∀ a, ∃ t, exec (.lda a) s = .next t ∧ t.reg .a = s.answer 0 a ∧ Keeps s t [.reg .a] [] ∧
      Ran s t (s.pc + 3#16) (s.cfg.baseCycles (Instr.lda a).opcode) [.memRead a (s.answer 0 a)]) ∧
    (∀ pr, ∃ t, exec (.ldax pr) s = .next t ∧ t.reg .a = s.answer 0 (s.indAddr pr) ∧
      Keeps s t [.reg .a] [] ∧
      Ran s t (s.pc + 1#16) (s.cfg.baseCycles (Instr.ldax pr).opcode)
        [.memRead (s.indAddr pr) (s.answer 0 (s.indAddr pr))])

/-- MOV M,r, MVI M, STA and STAX complete: one write at HL, at the direct address, at BC or DE; no register
and no flag changes. -/
def Obligations.StoresWriteOneByte : Prop :=
  ∀ s : State,
    (∀ src, ∃ t, exec (.movMR src) s = .next t ∧ Stored s t s.hl (s.reg src) ∧
      Keeps s t [] [s.hl] ∧
      Ran s t (s.pc + 1#16) (s.cfg.baseCycles (Instr.movMR src).opcode)
        [.memWrite s.hl (s.reg src)]) ∧
    (∀ v, ∃ t, exec (.mviM v) s = .next t ∧ Stored s t s.hl v ∧ Keeps s t [] [s.hl] ∧
      Ran s t (s.pc + 2#16) (s.cfg.baseCycles (Instr.mviM v).opcode) [.memWrite s.hl v]) ∧
    (∀ a, ∃ t, exec (.sta a) s = .next t ∧ Stored s t a (s.reg .a) ∧ Keeps s t [] [a] ∧
      Ran s t (s.pc + 3#16) (s.cfg.baseCycles (Instr.sta a).opcode) [.memWrite a (s.reg .a)]) ∧
    (∀ pr, ∃ t, exec (.stax pr) s = .next t ∧ Stored s t (s.indAddr pr) (s.reg .a) ∧
      Keeps s t [] [s.indAddr pr] ∧
      Ran s t (s.pc + 1#16) (s.cfg.baseCycles (Instr.stax pr).opcode)
        [.memWrite (s.indAddr pr) (s.reg .a)])

/-- LXI and SPHL complete: the pair or `sp` receives the immediate word, `sp` the value of HL. Pair code 3
as `sp` is the spec's decision D34. -/
def Obligations.LxiAndSphlWriteWord : Prop :=
  ∀ s : State,
    (∀ pr w, ∃ t, exec (.lxi pr w) s = .next t ∧ t.rp16 pr = w ∧ Keeps s t pr.pieces [] ∧
      Ran s t (s.pc + 3#16) (s.cfg.baseCycles (Instr.lxi pr w).opcode) []) ∧
    (∃ t, exec .sphl s = .next t ∧ t.sp = s.hl ∧ Keeps s t [.sp] [] ∧
      Ran s t (s.pc + 1#16) (s.cfg.baseCycles Instr.sphl.opcode) [])

/-- LHLD completes: L from the address, H from the next one modulo 2^16, in this order. The byte order is
the spec's decision D7, the order of the reads D15. -/
def Obligations.LhldLoadsLowByteFirst : Prop :=
  ∀ (s : State) (a : Word), ∃ t, exec (.lhld a) s = .next t ∧
    t.reg .l = s.answer 0 a ∧ t.reg .h = s.answer 1 (a + 1#16) ∧ Keeps s t [.reg .h, .reg .l] [] ∧
    Ran s t (s.pc + 3#16) (s.cfg.baseCycles (Instr.lhld a).opcode)
      [.memRead a (s.answer 0 a), .memRead (a + 1#16) (s.answer 1 (a + 1#16))]

/-- SHLD completes: L to the address, H to the next one modulo 2^16, in this order. The byte order is the
spec's decision D7, the order of the writes D15. -/
def Obligations.ShldStoresLowByteFirst : Prop :=
  ∀ (s : State) (a : Word), ∃ t, exec (.shld a) s = .next t ∧
    Stored s t a (s.reg .l) ∧ Stored s t (a + 1#16) (s.reg .h) ∧ Keeps s t [] [a, a + 1#16] ∧
    Ran s t (s.pc + 3#16) (s.cfg.baseCycles (Instr.shld a).opcode)
      [.memWrite a (s.reg .l), .memWrite (a + 1#16) (s.reg .h)]

/-- XCHG, 0xEB, completes: H swaps with D, L with E (R132). -/
def Obligations.XchgSwapsHlAndDe : Prop :=
  encode .xchg = [0xEB#8] ∧ Instr.xchg.mode = .implied ∧ ∀ s : State, ∃ t, exec .xchg s = .next t ∧
    t.reg .h = s.reg .d ∧ t.reg .d = s.reg .h ∧ t.reg .l = s.reg .e ∧ t.reg .e = s.reg .l ∧
    Keeps s t [.reg .d, .reg .e, .reg .h, .reg .l] [] ∧
    Ran s t (s.pc + 1#16) (s.cfg.baseCycles Instr.xchg.opcode) []

/-! ## Stack -/

/-- PUSH rp and PUSH PSW complete: the pair, or A and the status byte, is pushed; no flag changes. The byte
order is the spec's parameter of D5, the order of the writes D15, the layout of the PSW D6. -/
def Obligations.PushStoresWord : Prop :=
  ∀ s : State,
    (∀ pr, ∃ t, exec (.push pr) s = .next t ∧ Pushed s t (s.pair pr) ∧
      Keeps s t [.sp] s.pushSlots ∧
      Ran s t (s.pc + 1#16) (s.cfg.baseCycles (Instr.push pr).opcode) (s.pushEvents (s.pair pr))) ∧
    (∃ t, exec .pushPsw s = .next t ∧ Pushed s t (mkWord (s.reg .a) s.status) ∧
      Keeps s t [.sp] s.pushSlots ∧
      Ran s t (s.pc + 1#16) (s.cfg.baseCycles Instr.pushPsw.opcode)
        (s.pushEvents (mkWord (s.reg .a) s.status)))

/-- POP rp completes: the pair receives the word at the top of the stack, `sp` is 2 higher. The byte order
is the spec's parameter of D5, the order of the reads D15. -/
def Obligations.PopLoadsPair : Prop :=
  ∀ (s : State) (pr : Pair), ∃ t, exec (.pop pr) s = .next t ∧
    t.pair pr = s.topWord ∧ t.sp = s.sp + 2#16 ∧ Keeps s t (.sp :: pr.pieces) [] ∧
    Ran s t (s.pc + 1#16) (s.cfg.baseCycles (Instr.pop pr).opcode) s.topEvents

/-- POP PSW completes: A receives the high byte of the word at the top of the stack, the flags bits 7, 6, 4,
2 and 0 of its low byte. The layout of the PSW is the spec's decision D6, the fixed bits D31, the byte order
is the spec's parameter of D5, the order of the reads D15. -/
def Obligations.PopPswLoadsFlags : Prop :=
  ∀ s : State, ∃ t, exec .popPsw s = .next t ∧
    t.reg .a = hiByte s.topWord ∧ t.flags.s = s.topWord.getLsbD 7 ∧
    t.flags.z = s.topWord.getLsbD 6 ∧ t.flags.ac = s.topWord.getLsbD 4 ∧
    t.flags.p = s.topWord.getLsbD 2 ∧ t.flags.cy = s.topWord.getLsbD 0 ∧ t.sp = s.sp + 2#16 ∧
    Keeps s t (.sp :: .reg .a :: allFlags) [] ∧
    Ran s t (s.pc + 1#16) (s.cfg.baseCycles Instr.popPsw.opcode) s.topEvents

/-- XTHL completes: HL receives the word at the top of the stack, which receives HL; both reads come before
both writes, `sp` stays. The byte order is the spec's parameter of D5, the order of the transactions D15. -/
def Obligations.XthlExchanges : Prop :=
  ∀ s : State, ∃ t, exec .xthl s = .next t ∧ t.pair .hl = s.topWord ∧
    Stored s t (s.hiSlot s.sp) (s.reg .h) ∧ Stored s t (s.loSlot s.sp) (s.reg .l) ∧
    Keeps s t [.reg .h, .reg .l] [s.sp, s.sp + 1#16] ∧
    Ran s t (s.pc + 1#16) (s.cfg.baseCycles Instr.xthl.opcode)
      (s.topEvents ++ (if s.cfg.stackHiAtSp then
        [.memWrite s.sp (s.reg .h), .memWrite (s.sp + 1#16) (s.reg .l)]
      else [.memWrite s.sp (s.reg .l), .memWrite (s.sp + 1#16) (s.reg .h)]))

/-! ## Control transfer -/

/-- JMP, its duplicate and PCHL complete: `pc` receives the address, or HL; nothing else changes. The
duplicate is the spec's decision D3. -/
def Obligations.JmpAndPchlWritePc : Prop :=
  ∀ s : State,
    (∀ a, ∃ t, exec (.jmp a) s = .next t ∧ Keeps s t [] [] ∧
      Ran s t a (s.cfg.baseCycles (Instr.jmp a).opcode) []) ∧
    (∀ a, ∃ t, exec (.jmpDup a) s = .next t ∧ Keeps s t [] [] ∧
      Ran s t a (s.cfg.baseCycles (Instr.jmpDup a).opcode) []) ∧
    (∃ t, exec .pchl s = .next t ∧ Keeps s t [] [] ∧
      Ran s t s.hl (s.cfg.baseCycles Instr.pchl.opcode) [])

/-- The eight conditional jumps complete: `pc` receives the address when the condition holds, else the
address of the next instruction. The codes of the conditions are the spec's decision D17, the extra cycles
its parameter of D13. -/
def Obligations.ConditionalJumps : Prop :=
  ∀ (cond : Cond) (a : Word) (s : State), ∃ t, exec (cond.jumpInstr a) s = .next t ∧
    Keeps s t [] [] ∧
    (s.flags.holds cond = true →
      Ran s t a (s.cfg.baseCycles (cond.jumpInstr a).opcode +
        s.cfg.extraCycles (cond.jumpInstr a).opcode) []) ∧
    (s.flags.holds cond = false →
      Ran s t (s.pc + 3#16) (s.cfg.baseCycles (cond.jumpInstr a).opcode) [])

/-- CALL, its duplicates and RST complete: the address of the next instruction is pushed, `pc` receives the
address, `8 * n` for RST n. The vectors are the spec's decision D16, the duplicates D3, the byte order is
the spec's parameter of D5, the order of the writes D15. -/
def Obligations.CallAndRstPushReturnAddress : Prop :=
  ∀ s : State,
    (∀ a, ∃ t, exec (.call a) s = .next t ∧ Pushed s t (s.pc + 3#16) ∧
      Keeps s t [.sp] s.pushSlots ∧
      Ran s t a (s.cfg.baseCycles (Instr.call a).opcode) (s.pushEvents (s.pc + 3#16))) ∧
    (∀ p a, ∃ t, exec (.callDup p a) s = .next t ∧ Pushed s t (s.pc + 3#16) ∧
      Keeps s t [.sp] s.pushSlots ∧
      Ran s t a (s.cfg.baseCycles (Instr.callDup p a).opcode) (s.pushEvents (s.pc + 3#16))) ∧
    (∀ n, ∃ t, exec (.rst n) s = .next t ∧ Pushed s t (s.pc + 1#16) ∧
      Keeps s t [.sp] s.pushSlots ∧
      Ran s t (BitVec.ofNat 16 (8 * n.toNat)) (s.cfg.baseCycles (Instr.rst n).opcode)
        (s.pushEvents (s.pc + 1#16)))

/-- The eight conditional calls complete: as CALL, with the extra cycles, when the condition holds; else
nothing is pushed and `pc` advances. The extra cycles are the spec's parameter of D13, the byte order is the
spec's parameter of D5, the order of the writes D15. -/
def Obligations.ConditionalCalls : Prop :=
  ∀ (cond : Cond) (a : Word) (s : State), ∃ t, exec (cond.callInstr a) s = .next t ∧
    (s.flags.holds cond = true →
      Pushed s t (s.pc + 3#16) ∧ Keeps s t [.sp] s.pushSlots ∧
      Ran s t a (s.cfg.baseCycles (cond.callInstr a).opcode +
        s.cfg.extraCycles (cond.callInstr a).opcode) (s.pushEvents (s.pc + 3#16))) ∧
    (s.flags.holds cond = false →
      Keeps s t [] [] ∧ Ran s t (s.pc + 3#16) (s.cfg.baseCycles (cond.callInstr a).opcode) [])

/-- RET and its duplicate complete: `pc` receives the word at the top of the stack, `sp` is 2 higher. The
duplicate is the spec's decision D3, the byte order is the spec's parameter of D5, the order of the reads
D15. -/
def Obligations.RetPopsPc : Prop :=
  ∀ (s : State) (i : Instr), i = .ret ∨ i = .retDup →
    ∃ t, exec i s = .next t ∧ t.sp = s.sp + 2#16 ∧ Keeps s t [.sp] [] ∧
      Ran s t s.topWord (s.cfg.baseCycles i.opcode) s.topEvents

/-- The eight conditional returns complete: as RET, with the extra cycles, when the condition holds; else no
memory is read, `sp` stays and `pc` advances. The extra cycles are the spec's parameter of D13, the byte
order is the spec's parameter of D5, the order of the reads D15. -/
def Obligations.ConditionalReturns : Prop :=
  ∀ (cond : Cond) (s : State), ∃ t, exec cond.retInstr s = .next t ∧
    (s.flags.holds cond = true →
      t.sp = s.sp + 2#16 ∧ Keeps s t [.sp] [] ∧
      Ran s t s.topWord (s.cfg.baseCycles cond.retInstr.opcode +
        s.cfg.extraCycles cond.retInstr.opcode) s.topEvents) ∧
    (s.flags.holds cond = false →
      Keeps s t [] [] ∧ Ran s t (s.pc + 1#16) (s.cfg.baseCycles cond.retInstr.opcode) [])

/-! ## Increment and decrement -/

/-- INR r, `00 DDD 100`, and INR M, 0x34, complete: the operand plus 1 modulo 2^8; S, Z, P of the result, AC
when the low nibble was 15, CY as it was. INR M makes one read and then one write at HL (R170, R171). -/
def Obligations.InrIncrements : Prop :=
  (allRegs.map fun r => encode (.inrR r)) =
    [[0x04#8], [0x0C#8], [0x14#8], [0x1C#8], [0x24#8], [0x2C#8], [0x3C#8]] ∧
  (∀ r, (Instr.inrR r).mode = .implied) ∧ encode .inrM = [0x34#8] ∧ Instr.inrM.mode = .hlInd ∧
  ∀ s : State,
    (∀ r, ∃ t, exec (.inrR r) s = .next t ∧ (t.reg r).toNat = ((s.reg r).toNat + 1) % 256 ∧
      Describes t.flags (t.reg r) ∧ t.flags.ac = decide ((s.reg r).toNat % 16 = 15) ∧
      Keeps s t [.reg r, .s, .z, .ac, .p] [] ∧
      Ran s t (s.pc + 1#16) (s.cfg.baseCycles (Instr.inrR r).opcode) []) ∧
    (∃ (t : State) (v : Byte), exec .inrM s = .next t ∧
      v.toNat = ((s.answer 0 s.hl).toNat + 1) % 256 ∧ Stored s t s.hl v ∧ Describes t.flags v ∧
      t.flags.ac = decide ((s.answer 0 s.hl).toNat % 16 = 15) ∧
      Keeps s t [.s, .z, .ac, .p] [s.hl] ∧
      Ran s t (s.pc + 1#16) (s.cfg.baseCycles Instr.inrM.opcode)
        [.memRead s.hl (s.answer 0 s.hl), .memWrite s.hl v])

/-- DCR r and DCR M complete: the operand minus 1 modulo 2^8; S, Z, P of the result, AC by `SUB_AUX_MODE`,
CY as it was. DCR M makes one read and then one write at HL. AC is the spec's parameter of D8. -/
def Obligations.DcrDecrements : Prop :=
  ∀ s : State,
    (∀ r, ∃ t, exec (.dcrR r) s = .next t ∧ (t.reg r).toNat = ((s.reg r).toNat + 255) % 256 ∧
      Describes t.flags (t.reg r) ∧ t.flags.ac = subAux s.cfg.subAuxMode (s.reg r) 1#8 false ∧
      Keeps s t [.reg r, .s, .z, .ac, .p] [] ∧
      Ran s t (s.pc + 1#16) (s.cfg.baseCycles (Instr.dcrR r).opcode) []) ∧
    (∃ (t : State) (v : Byte), exec .dcrM s = .next t ∧
      v.toNat = ((s.answer 0 s.hl).toNat + 255) % 256 ∧ Stored s t s.hl v ∧ Describes t.flags v ∧
      t.flags.ac = subAux s.cfg.subAuxMode (s.answer 0 s.hl) 1#8 false ∧
      Keeps s t [.s, .z, .ac, .p] [s.hl] ∧
      Ran s t (s.pc + 1#16) (s.cfg.baseCycles Instr.dcrM.opcode)
        [.memRead s.hl (s.answer 0 s.hl), .memWrite s.hl v])

/-- INX, `00 RP0 011`, and DCX, `00 RP1 011`, complete: the pair or `sp` plus or minus 1 modulo 2^16; no
flag changes (R174, R175). Pair code 3 as `sp` is the spec's decision D34. -/
def Obligations.InxAndDcxWrap : Prop :=
  (allRps.map fun pr => encode (.inx pr)) = [[0x03#8], [0x13#8], [0x23#8], [0x33#8]] ∧
  (allRps.map fun pr => encode (.dcx pr)) = [[0x0B#8], [0x1B#8], [0x2B#8], [0x3B#8]] ∧
  (∀ pr, (Instr.inx pr).mode = .implied ∧ (Instr.dcx pr).mode = .implied) ∧
  ∀ (s : State) (pr : Rp),
    (∃ t, exec (.inx pr) s = .next t ∧ (t.rp16 pr).toNat = ((s.rp16 pr).toNat + 1) % 65536 ∧
      Keeps s t pr.pieces [] ∧ Ran s t (s.pc + 1#16) (s.cfg.baseCycles (Instr.inx pr).opcode) []) ∧
    (∃ t, exec (.dcx pr) s = .next t ∧ (t.rp16 pr).toNat = ((s.rp16 pr).toNat + 65535) % 65536 ∧
      Keeps s t pr.pieces [] ∧ Ran s t (s.pc + 1#16) (s.cfg.baseCycles (Instr.dcx pr).opcode) [])

/-! ## Arithmetic -/

/-- ADD, ADC, ADI and ACI complete: A receives the sum, with the old CY for ADC and ACI, and all five flags
are those of the sum. Their encodings are `10 000 SSS`, `10 001 SSS`, 0xC6 and 0xCE (R181, R182, R185,
R186). -/
def Obligations.AdditionsGiveSumAndFlags : Prop :=
  (allOperands.map fun src => encode (.add src)) =
    [[0x80#8], [0x81#8], [0x82#8], [0x83#8], [0x84#8], [0x85#8], [0x86#8], [0x87#8]] ∧
  (allOperands.map fun src => encode (.adc src)) =
    [[0x88#8], [0x89#8], [0x8A#8], [0x8B#8], [0x8C#8], [0x8D#8], [0x8E#8], [0x8F#8]] ∧
  (∀ v, encode (.adi v) = [0xC6#8, v] ∧ encode (.aci v) = [0xCE#8, v] ∧
    (Instr.adi v).mode = .imm8 ∧ (Instr.aci v).mode = .imm8) ∧
  ∀ s : State,
    (∀ (ctor : Operand8 → Instr) (cin : Bool),
      (ctor = .add ∧ cin = false) ∨ (ctor = .adc ∧ cin = s.flags.cy) →
      ∀ src, ∃ t, exec (ctor src) s = .next t ∧
        IsSum (s.reg .a) (s.operand src) cin (t.reg .a) t.flags ∧
        Keeps s t (.reg .a :: allFlags) [] ∧
        Ran s t (s.pc + 1#16) (s.cfg.baseCycles (ctor src).opcode) (s.operandEvents src)) ∧
    (∀ (ctor : Byte → Instr) (cin : Bool),
      (ctor = .adi ∧ cin = false) ∨ (ctor = .aci ∧ cin = s.flags.cy) →
      ∀ v, ∃ t, exec (ctor v) s = .next t ∧ IsSum (s.reg .a) v cin (t.reg .a) t.flags ∧
        Keeps s t (.reg .a :: allFlags) [] ∧
        Ran s t (s.pc + 2#16) (s.cfg.baseCycles (ctor v).opcode) [])

/-- SUB, SBB, SUI and SBI complete: A receives the difference, with the old CY as borrow for SBB and SBI,
and all five flags are those of the difference. AC is the spec's parameter of D8. -/
def Obligations.SubtractionsGiveDifferenceAndFlags : Prop :=
  ∀ s : State,
    (∀ (ctor : Operand8 → Instr) (bin : Bool),
      (ctor = .sub ∧ bin = false) ∨ (ctor = .sbb ∧ bin = s.flags.cy) →
      ∀ src, ∃ t, exec (ctor src) s = .next t ∧
        IsDifference s.cfg.subAuxMode (s.reg .a) (s.operand src) bin (t.reg .a) t.flags ∧
        Keeps s t (.reg .a :: allFlags) [] ∧
        Ran s t (s.pc + 1#16) (s.cfg.baseCycles (ctor src).opcode) (s.operandEvents src)) ∧
    (∀ (ctor : Byte → Instr) (bin : Bool),
      (ctor = .sui ∧ bin = false) ∨ (ctor = .sbi ∧ bin = s.flags.cy) →
      ∀ v, ∃ t, exec (ctor v) s = .next t ∧
        IsDifference s.cfg.subAuxMode (s.reg .a) v bin (t.reg .a) t.flags ∧
        Keeps s t (.reg .a :: allFlags) [] ∧
        Ran s t (s.pc + 2#16) (s.cfg.baseCycles (ctor v).opcode) [])

/-- DAD, `00 RP1 001`, completes: HL receives the sum modulo 2^16, CY the carry out of bit 15; S, Z, AC and
P stay (R189). Pair code 3 as `sp` is the spec's decision D34. -/
def Obligations.DadAddsToHl : Prop :=
  (allRps.map fun pr => encode (.dad pr)) = [[0x09#8], [0x19#8], [0x29#8], [0x39#8]] ∧
  (∀ pr, (Instr.dad pr).mode = .implied) ∧
  ∀ (s : State) (pr : Rp), ∃ t, exec (.dad pr) s = .next t ∧
    t.hl.toNat = (s.hl.toNat + (s.rp16 pr).toNat) % 65536 ∧
    t.flags.cy = decide (65536 ≤ s.hl.toNat + (s.rp16 pr).toNat) ∧
    Keeps s t [.reg .h, .reg .l, .cy] [] ∧
    Ran s t (s.pc + 1#16) (s.cfg.baseCycles (Instr.dad pr).opcode) []

/-! ## Logic and compare -/

/-- ANA, `10 100 SSS`, and ANI, 0xE6, complete: A receives the AND, CY is 0, AC is bit 3 of the OR of the
operands (R201, R205). -/
def Obligations.AndSetsAuxFromBit3 : Prop :=
  (allOperands.map fun src => encode (.ana src)) =
    [[0xA0#8], [0xA1#8], [0xA2#8], [0xA3#8], [0xA4#8], [0xA5#8], [0xA6#8], [0xA7#8]] ∧
  (∀ v, encode (.ani v) = [0xE6#8, v] ∧ (Instr.ani v).mode = .imm8) ∧
  ∀ s : State,
    (∀ src, ∃ t, exec (.ana src) s = .next t ∧ t.reg .a = s.reg .a &&& s.operand src ∧
      IsBitwise (t.reg .a) ((s.reg .a).getLsbD 3 || (s.operand src).getLsbD 3) t.flags ∧
      Keeps s t (.reg .a :: allFlags) [] ∧
      Ran s t (s.pc + 1#16) (s.cfg.baseCycles (Instr.ana src).opcode) (s.operandEvents src)) ∧
    (∀ v, ∃ t, exec (.ani v) s = .next t ∧ t.reg .a = s.reg .a &&& v ∧
      IsBitwise (t.reg .a) ((s.reg .a).getLsbD 3 || v.getLsbD 3) t.flags ∧
      Keeps s t (.reg .a :: allFlags) [] ∧
      Ran s t (s.pc + 2#16) (s.cfg.baseCycles (Instr.ani v).opcode) [])

/-- XRA, ORA, XRI and ORI complete: A receives the XOR or OR, CY and AC are 0. CY and AC are the spec's
decision D9. -/
def Obligations.XorAndOrClearCarries : Prop :=
  ∀ s : State,
    (∀ (ctor : Operand8 → Instr) (f : Byte → Byte → Byte),
      (ctor = .xra ∧ f = fun a b => a ^^^ b) ∨ (ctor = .ora ∧ f = fun a b => a ||| b) →
      ∀ src, ∃ t, exec (ctor src) s = .next t ∧ t.reg .a = f (s.reg .a) (s.operand src) ∧
        IsBitwise (t.reg .a) false t.flags ∧ Keeps s t (.reg .a :: allFlags) [] ∧
        Ran s t (s.pc + 1#16) (s.cfg.baseCycles (ctor src).opcode) (s.operandEvents src)) ∧
    (∀ (ctor : Byte → Instr) (f : Byte → Byte → Byte),
      (ctor = .xri ∧ f = fun a b => a ^^^ b) ∨ (ctor = .ori ∧ f = fun a b => a ||| b) →
      ∀ v, ∃ t, exec (ctor v) s = .next t ∧ t.reg .a = f (s.reg .a) v ∧
        IsBitwise (t.reg .a) false t.flags ∧ Keeps s t (.reg .a :: allFlags) [] ∧
        Ran s t (s.pc + 2#16) (s.cfg.baseCycles (ctor v).opcode) [])

/-- CMP and CPI complete: the five flags are those of the difference A minus operand, A is as it was. AC is
the spec's parameter of D8. -/
def Obligations.ComparesKeepAccumulator : Prop :=
  ∀ s : State,
    (∀ src, ∃ (t : State) (v : Byte), exec (.cmp src) s = .next t ∧
      IsDifference s.cfg.subAuxMode (s.reg .a) (s.operand src) false v t.flags ∧
      Keeps s t allFlags [] ∧
      Ran s t (s.pc + 1#16) (s.cfg.baseCycles (Instr.cmp src).opcode) (s.operandEvents src)) ∧
    (∀ d8, ∃ (t : State) (v : Byte), exec (.cpi d8) s = .next t ∧
      IsDifference s.cfg.subAuxMode (s.reg .a) d8 false v t.flags ∧ Keeps s t allFlags [] ∧
      Ran s t (s.pc + 2#16) (s.cfg.baseCycles (Instr.cpi d8).opcode) [])

/-! ## Rotate and special -/

/-- RLC, RRC, RAL and RAR complete: A is rotated by one, CY receives the bit that left it, no other flag
changes. Their directions are the spec's decision D18. -/
def Obligations.RotatesMoveOneBit : Prop :=
  ∀ (s : State) (i : Instr) (value : Nat) (carry : Bool),
    (i = .rlc ∧ value = (s.reg .a).toNat * 2 % 256 + (s.reg .a).toNat / 128 ∧
      carry = decide (128 ≤ (s.reg .a).toNat)) ∨
    (i = .rrc ∧ value = (s.reg .a).toNat / 2 + (s.reg .a).toNat % 2 * 128 ∧
      carry = decide ((s.reg .a).toNat % 2 = 1)) ∨
    (i = .ral ∧ value = (s.reg .a).toNat * 2 % 256 + bitNat s.flags.cy ∧
      carry = decide (128 ≤ (s.reg .a).toNat)) ∨
    (i = .rar ∧ value = (s.reg .a).toNat / 2 + bitNat s.flags.cy * 128 ∧
      carry = decide ((s.reg .a).toNat % 2 = 1)) →
    ∃ t, exec i s = .next t ∧ (t.reg .a).toNat = value ∧ t.flags.cy = carry ∧
      Keeps s t [.reg .a, .cy] [] ∧ Ran s t (s.pc + 1#16) (s.cfg.baseCycles i.opcode) []

/-- CMA, 0x2F, STC, 0x37, and CMC, 0x3F, complete: A complemented and no flag written; CY set; CY inverted
(R230, R231, R232). -/
def Obligations.CmaStcCmcComplete : Prop :=
  encode .cma = [0x2F#8] ∧ encode .stc = [0x37#8] ∧ encode .cmc = [0x3F#8] ∧
  (∀ i ∈ [Instr.cma, .stc, .cmc], i.mode = .implied) ∧
  ∀ s : State,
    (∃ t, exec .cma s = .next t ∧ (t.reg .a).toNat = 255 - (s.reg .a).toNat ∧
      Keeps s t [.reg .a] [] ∧ Ran s t (s.pc + 1#16) (s.cfg.baseCycles Instr.cma.opcode) []) ∧
    (∃ t, exec .stc s = .next t ∧ t.flags.cy = true ∧ Keeps s t [.cy] [] ∧
      Ran s t (s.pc + 1#16) (s.cfg.baseCycles Instr.stc.opcode) []) ∧
    (∃ t, exec .cmc s = .next t ∧ t.flags.cy = !s.flags.cy ∧ Keeps s t [.cy] [] ∧
      Ran s t (s.pc + 1#16) (s.cfg.baseCycles Instr.cmc.opcode) [])

/-- DAA completes: 6 is added when the low nibble exceeds 9 or AC is set, then 0x60 when the rest exceeds 9
or CY is set; AC is the carry of the first step, CY whether the second was made, S, Z, P of the result. The
second condition, AC and CY are the spec's decision D10. -/
def Obligations.DaaAdjusts : Prop :=
  ∀ s : State, ∃ (t : State) (six sixty : Nat),
    exec .daa s = .next t ∧
    six = (if 9 < (s.reg .a).toNat % 16 ∨ s.flags.ac = true then 6 else 0) ∧
    sixty = (if 9 < ((s.reg .a).toNat + six) / 16 ∨ s.flags.cy = true then 0x60 else 0) ∧
    (t.reg .a).toNat = ((s.reg .a).toNat + six + sixty) % 256 ∧
    t.flags.ac = decide (16 ≤ (s.reg .a).toNat % 16 + six) ∧
    t.flags.cy = decide (sixty = 0x60) ∧ Describes t.flags (t.reg .a) ∧
    Keeps s t (.reg .a :: allFlags) [] ∧
    Ran s t (s.pc + 1#16) (s.cfg.baseCycles Instr.daa.opcode) []

/-! ## Input, output, control -/

/-- IN, 0xDB, completes: A receives what the I/O device answers at the port, in one I/O read; no flag
changes, and the null device answers 0 (R240). That it is exactly one I/O transaction is the spec's decision
D24, the kinds of port are log 7. -/
def Obligations.InReadsPort : Prop :=
  (∀ p, encode (.inp p) = [0xDB#8, p] ∧ (Instr.inp p).mode = .imm8) ∧
  ∀ (s : State) (p : Byte), ∃ t, exec (.inp p) s = .next t ∧ t.reg .a = s.portAnswer p ∧
    Keeps s t [.reg .a] [] ∧
    Ran s t (s.pc + 2#16) (s.cfg.baseCycles (Instr.inp p).opcode) [.ioRead p (s.portAnswer p)] ∧
    (s.ioMap.kindAt p = .absent → t.reg .a = 0#8)

/-- OUT completes: A is sent to the port in one I/O write; an attached device has received it, the null
device has discarded it; nothing else changes. That it is exactly one I/O transaction is the spec's decision
D24, the record of an attached device is the model's (log 8). -/
def Obligations.OutWritesPort : Prop :=
  ∀ (s : State) (p : Byte), ∃ t, exec (.out p) s = .next t ∧
    t.ioOut = (if s.ioMap.kindAt p = .absent then s.ioOut else s.ioOut ++ [(p, s.reg .a)]) ∧
    Keeps s t [.ioOut] [] ∧
    Ran s t (s.pc + 2#16) (s.cfg.baseCycles (Instr.out p).opcode) [.ioWrite p (s.reg .a)]

/-- EI, DI, NOP, its duplicates and HLT complete: `inte` 1, `inte` 0, nothing, nothing, `halted` 1; `pc`
advances, HLT's too, and no bus transaction is made. What EI, DI and HLT leave behind is the spec's
decisions D11 and D12, the duplicates D3. -/
def Obligations.ControlInstructionsComplete : Prop :=
  ∀ s : State,
    (∃ t, exec .ei s = .next t ∧ t.inte = true ∧ Keeps s t [.inte] [] ∧
      Ran s t (s.pc + 1#16) (s.cfg.baseCycles Instr.ei.opcode) []) ∧
    (∃ t, exec .di s = .next t ∧ t.inte = false ∧ Keeps s t [.inte] [] ∧
      Ran s t (s.pc + 1#16) (s.cfg.baseCycles Instr.di.opcode) []) ∧
    (∃ t, exec .nop s = .next t ∧ Keeps s t [] [] ∧
      Ran s t (s.pc + 1#16) (s.cfg.baseCycles Instr.nop.opcode) []) ∧
    (∀ n, ∃ t, exec (.nopDup n) s = .next t ∧ Keeps s t [] [] ∧
      Ran s t (s.pc + 1#16) (s.cfg.baseCycles (Instr.nopDup n).opcode) []) ∧
    (∃ t, exec .hlt s = .next t ∧ t.halted = true ∧ Keeps s t [.halted] [] ∧
      Ran s t (s.pc + 1#16) (s.cfg.baseCycles Instr.hlt.opcode) [])
end

