-- ==== Sys2Proof/Laws/Words.lean ====
section
/-! SUPPORT. Bytes and words: the halves of a word and back. -/

namespace Sys2Proof

@[simp] theorem hiByte_mkWord (hi lo : Byte) : hiByte (mkWord hi lo) = hi := by
  unfold hiByte mkWord
  ext k hk
  simp only [BitVec.getElem_extractLsb', BitVec.getLsbD_append]
  have h : ¬(8 + k < 8) := by omega
  simp [h, BitVec.getLsbD_eq_getElem hk]

@[simp] theorem loByte_mkWord (hi lo : Byte) : loByte (mkWord hi lo) = lo := by
  unfold loByte mkWord
  ext k hk
  simp only [BitVec.getElem_extractLsb', BitVec.getLsbD_append]
  have h : ¬8 ≤ k := by omega
  simp [h, BitVec.getLsbD_eq_getElem hk]

@[simp] theorem mkWord_hiByte_loByte (w : Word) : mkWord (hiByte w) (loByte w) = w := by
  unfold hiByte loByte mkWord
  ext k hk
  simp only [← BitVec.getLsbD_eq_getElem, BitVec.getLsbD_append, BitVec.getLsbD_extractLsb']
  by_cases h : k < 8
  · simp [h]
  · have h1 : k - 8 < 8 := by omega
    have h2 : 8 + (k - 8) = k := by omega
    simp [h, h1, h2]

theorem mkWord_toNat (hi lo : Byte) : (mkWord hi lo).toNat = hi.toNat * 256 + lo.toNat := by
  unfold mkWord
  rw [BitVec.toNat_append, Nat.shiftLeft_eq, ← Nat.shiftLeft_eq, ← Nat.shiftLeft_add_eq_or_of_lt lo.isLt,
    Nat.shiftLeft_eq]

/-- The bits of the low byte are the low bits of the word. -/
theorem loByte_getLsbD (w : Word) {k : Nat} (h : k < 8) : (loByte w).getLsbD k = w.getLsbD k := by
  simp [loByte, h]

/-- The bits of the high byte are the high bits of the word. -/
theorem hiByte_getLsbD (w : Word) {k : Nat} (h : k < 8) : (hiByte w).getLsbD k = w.getLsbD (8 + k) := by
  simp [hiByte, h]

end Sys2Proof
end

