-- ==== Sys2Proof/Laws/Decode.lean ====
section
/-! SUPPORT. What the decoder reads from the opcode byte alone, and what it does with the bytes after it. -/

namespace Sys2Proof

/-! ### The operand bytes decide neither opcode, nor length, nor well-formedness -/

theorem decodeOp_opcode (op b2 b3 : Byte) :
    (decodeOp op b2 b3).opcode = (decodeOp op 0#8 0#8).opcode := by
  unfold decodeOp decodeGroup0 decodeGroup3
  split
  · split
    · rfl
    all_goals (split <;> rfl)
  · rfl
  · rfl
  · split
    any_goals rfl
    any_goals (split <;> rfl)
    split
    · split <;> rfl
    · split <;> rfl

theorem decodeOp_length (op b2 b3 : Byte) : (decodeOp op b2 b3).length = opLength op := by
  unfold opLength
  unfold decodeOp decodeGroup0 decodeGroup3
  split
  · split
    · rfl
    all_goals (split <;> rfl)
  · rfl
  · rfl
  · split
    any_goals rfl
    any_goals (split <;> rfl)
    split
    · split <;> rfl
    · split <;> rfl

theorem decodeOp_wf (op b2 b3 : Byte) : (decodeOp op b2 b3).wf = (decodeOp op 0#8 0#8).wf := by
  unfold decodeOp decodeGroup0 decodeGroup3
  split
  · split
    · rfl
    all_goals (split <;> rfl)
  · rfl
  · rfl
  · split
    any_goals rfl
    any_goals (split <;> rfl)
    split
    · split <;> rfl
    · split <;> rfl

/-! ### What the opcode byte decides -/

/-- The opcode byte of the instruction decoded is the byte it was decoded from. -/
theorem decodeOp_opcode_self (op b2 b3 : Byte) : (decodeOp op b2 b3).opcode = op := by
  rw [decodeOp_opcode]
  revert op
  decide

/-- What decodes is well formed. -/
theorem decodeOp_wf_true (op b2 b3 : Byte) : (decodeOp op b2 b3).wf = true := by
  rw [decodeOp_wf]
  revert op
  decide

/-- An instruction is 1, 2 or 3 bytes long. -/
theorem opLength_cases (op : Byte) : opLength op = 1 ∨ opLength op = 2 ∨ opLength op = 3 := by
  revert op
  decide

/-- The bytes of a word put together from two are these two. -/
theorem wordBytes_mkWord (b2 b3 : Byte) : [loByte (mkWord b3 b2), hiByte (mkWord b3 b2)] = [b2, b3] := by
  rw [loByte_mkWord, hiByte_mkWord]

/-- The operand bytes of the instruction decoded are the bytes after the opcode, as many as it has. -/
theorem decodeOp_operandBytes (op b2 b3 : Byte) :
    (decodeOp op b2 b3).operandBytes = [b2, b3].take (opLength op - 1) := by
  unfold opLength decodeOp
  split
  · unfold decodeGroup0
    split
    · split <;> rfl
    all_goals (split <;> first | rfl | exact wordBytes_mkWord b2 b3)
  · unfold decodeGroup1
    split <;> rfl
  · unfold decodeGroup2
    generalize operand8OfCode (opLow op) = src
    cases src <;> (simp only; split <;> rfl)
  · unfold decodeGroup3
    split
    · split <;> rfl
    · split
      · split <;> rfl
      · split <;> rfl
    · split <;> exact wordBytes_mkWord b2 b3
    · split <;> first | rfl | exact wordBytes_mkWord b2 b3
    · split <;> exact wordBytes_mkWord b2 b3
    · split
      · split <;> exact wordBytes_mkWord b2 b3
      · split <;> rfl
    · split <;> rfl
    · rfl

theorem of_two_eq_one {p : Prop} (h : (2 : Nat) = 1) : p := absurd h (by decide)
theorem of_three_eq_one {p : Prop} (h : (3 : Nat) = 1) : p := absurd h (by decide)
theorem of_three_eq_two {p : Prop} (h : (3 : Nat) = 2) : p := absurd h (by decide)

/-- An instruction of one byte does not depend on the bytes after the opcode. -/
theorem decodeOp_of_length_one {op : Byte} (b2 b3 : Byte) :
    opLength op = 1 → decodeOp op b2 b3 = decodeOp op 0#8 0#8 := by
  unfold opLength decodeOp
  split
  · unfold decodeGroup0
    split
    · split <;> exact fun _ => rfl
    all_goals (split <;> first | exact of_three_eq_one | exact of_two_eq_one | exact fun _ => rfl)
  · exact fun _ => rfl
  · exact fun _ => rfl
  · unfold decodeGroup3
    split
    · exact fun _ => rfl
    · exact fun _ => rfl
    · split <;> exact of_three_eq_one
    · split <;> first | exact of_three_eq_one | exact of_two_eq_one | exact fun _ => rfl
    · split <;> exact of_three_eq_one
    · split
      · split <;> exact of_three_eq_one
      · exact fun _ => rfl
    · split <;> exact of_two_eq_one
    · exact fun _ => rfl

/-- An instruction of two bytes does not depend on the third. -/
theorem decodeOp_of_length_two {op : Byte} (b2 b3 : Byte) :
    opLength op = 2 → decodeOp op b2 b3 = decodeOp op b2 0#8 := by
  unfold opLength decodeOp
  split
  · unfold decodeGroup0
    split
    · split <;> exact fun _ => rfl
    all_goals (split <;> first | exact of_three_eq_two | exact fun _ => rfl)
  · exact fun _ => rfl
  · exact fun _ => rfl
  · unfold decodeGroup3
    split
    · exact fun _ => rfl
    · exact fun _ => rfl
    · split <;> exact of_three_eq_two
    · split <;> first | exact of_three_eq_two | exact fun _ => rfl
    · split <;> exact of_three_eq_two
    · split
      · split <;> exact of_three_eq_two
      · exact fun _ => rfl
    · split <;> first | exact of_three_eq_two | exact fun _ => rfl
    · exact fun _ => rfl

end Sys2Proof
end

