-- ==== Sys2Proof/Laws/Flags.lean ====
section
/-! SUPPORT. The ALU helpers over the natural numbers: each lemma says once everything its helper computes. -/

namespace Sys2Proof.Machine

/-! ### Bits as numbers -/

theorem getLsbD_eq_decide {n : Nat} (x : BitVec n) (k : Nat) :
    x.getLsbD k = decide (x.toNat / 2 ^ k % 2 = 1) := by
  rw [BitVec.getLsbD, Nat.testBit_eq_decide_div_mod_eq]

theorem low8_toNat {n : Nat} (w : BitVec n) : (low8 w).toNat = w.toNat % 256 := by
  simp [low8]

theorem bit16_toNat (b : Bool) : (bit16 b).toNat = bitNat b := by cases b <;> rfl

theorem bitNat_le_one (b : Bool) : bitNat b ≤ 1 := by cases b <;> decide

theorem nibble_toNat (v : Byte) : (nibble v).toNat = v.toNat % 16 := by
  have h : v.toNat &&& 15 = v.toNat % 2 ^ 4 := Nat.and_two_pow_sub_one_eq_mod v.toNat 4
  have h15 : (0x0F#8 : Byte).toNat = 15 := rfl
  rw [nibble, BitVec.toNat_setWidth, BitVec.toNat_and, h15, h]
  omega

/-- The two spellings of the parity flag. -/
theorem parityOf_eq (v : Byte) :
    parityOf v = decide (((List.range 8).filter fun k => v.getLsbD k).length % 2 = 0) := by
  have h : ((List.range 8).filter fun k => v.getLsbD k).length = popcount v := by
    simp only [List.range, List.range.loop, List.filter, popcount]
    cases v.getLsbD 0 <;> cases v.getLsbD 1 <;> cases v.getLsbD 2 <;> cases v.getLsbD 3 <;>
      cases v.getLsbD 4 <;> cases v.getLsbD 5 <;> cases v.getLsbD 6 <;> cases v.getLsbD 7 <;> rfl
  have hl : low8 v = v := by simp [low8]
  rw [h, parityOf, hl]
  rfl

theorem signOf_eq (v : Byte) : signOf v = decide (128 ≤ v.toNat) := by
  have := v.isLt
  rw [signOf, getLsbD_eq_decide, decide_eq_decide]
  omega

theorem zeroOf_eq (v : Byte) : zeroOf v = decide (v.toNat = 0) := by
  rw [zeroOf, beq_eq_decide, decide_eq_decide, ← BitVec.toNat_inj, low8_toNat]
  have := v.isLt
  simp only [BitVec.toNat_ofNat]
  omega

/-- S, Z and P of a wide result are those of its low byte. -/
theorem signOf_low8 {n : Nat} (w : BitVec n) : signOf (low8 w) = signOf w := by
  simp [signOf, low8]

theorem zeroOf_low8 {n : Nat} (w : BitVec n) : zeroOf (low8 w) = zeroOf w := by
  simp [zeroOf, low8]

theorem parityOf_low8 {n : Nat} (w : BitVec n) : parityOf (low8 w) = parityOf w := by
  simp [parityOf, low8]

/-- Flags whose S, Z and P are those of a byte describe it. -/
theorem describes_of {f : Flags} {v : Byte} (hs : f.s = signOf v) (hz : f.z = zeroOf v)
    (hp : f.p = parityOf v) : Describes f v :=
  ⟨hs.trans (signOf_eq v), hz.trans (zeroOf_eq v), hp.trans (parityOf_eq v)⟩

theorem setSZP_describes (f : Flags) (v : Byte) : Describes (f.setSZP v) v := describes_of rfl rfl rfl

@[simp] theorem Flags.setSZP_ac (f : Flags) (v : Byte) : (f.setSZP v).ac = f.ac := rfl
@[simp] theorem Flags.setSZP_cy (f : Flags) (v : Byte) : (f.setSZP v).cy = f.cy := rfl

/-! ### The helpers -/

/-- `Add8` gives the sum and its flags. -/
theorem add8_isSum (a b : Byte) (cin : Bool) : IsSum a b cin (add8 a b cin).1 (add8 a b cin).2 := by
  have ha := a.isLt
  have hb := b.isLt
  have hc := bitNat_le_one cin
  have hw : (a.setWidth 16 + b.setWidth 16 + bit16 cin).toNat = a.toNat + b.toNat + bitNat cin := by
    simp only [BitVec.toNat_add, BitVec.toNat_setWidth, bit16_toNat]
    omega
  have hn : (nibble a + nibble b + bit16 cin).toNat = a.toNat % 16 + b.toNat % 16 + bitNat cin := by
    simp only [BitVec.toNat_add, nibble_toNat, bit16_toNat]
    omega
  refine ⟨?_, ?_, ?_, describes_of ?_ ?_ ?_⟩
  · simp only [add8, low8_toNat, hw]
  · simp only [add8, carryOf8, getLsbD_eq_decide, hw, decide_eq_decide]
    omega
  · simp only [add8, auxOf, getLsbD_eq_decide, hn, decide_eq_decide]
    omega
  · simp only [add8, signOf_low8]
  · simp only [add8, zeroOf_low8]
  · simp only [add8, parityOf_low8]

/-- The nibble value of `Sub8`, both modes. -/
theorem auxOf_subNibble (mode : SubAuxMode) (a b : Byte) (bin : Bool) :
    auxOf (subNibble mode a b bin) = subAux mode a b bin := by
  have hc := bitNat_le_one bin
  have hb := b.isLt
  cases mode
  · have hn : (nibble (~~~b)).toNat = 15 - b.toNat % 16 := by
      rw [nibble_toNat, BitVec.toNat_not]
      omega
    have hw : (nibble a + nibble (~~~b) + (1#16 - bit16 bin)).toNat =
        a.toNat % 16 + (15 - b.toNat % 16) + (1 - bitNat bin) := by
      simp only [BitVec.toNat_add, BitVec.toNat_sub, nibble_toNat, hn, bit16_toNat, BitVec.toNat_ofNat]
      omega
    simp only [subNibble, subAux, auxOf, getLsbD_eq_decide, hw, decide_eq_decide]
    omega
  · have hw : (nibble a - nibble b - bit16 bin).toNat =
        (131072 + a.toNat % 16 - b.toNat % 16 - bitNat bin) % 65536 := by
      simp only [BitVec.toNat_sub, nibble_toNat, bit16_toNat]
      omega
    simp only [subNibble, subAux, auxOf, getLsbD_eq_decide, hw, decide_eq_decide]
    omega

/-- `Sub8` gives the difference and its flags. -/
theorem sub8_isDifference (mode : SubAuxMode) (a b : Byte) (bin : Bool) :
    IsDifference mode a b bin (sub8 mode a b bin).1 (sub8 mode a b bin).2 := by
  have ha := a.isLt
  have hb := b.isLt
  have hc := bitNat_le_one bin
  have hw : (a.setWidth 16 - b.setWidth 16 - bit16 bin).toNat =
      (131072 + a.toNat - b.toNat - bitNat bin) % 65536 := by
    simp only [BitVec.toNat_sub, BitVec.toNat_setWidth, bit16_toNat]
    omega
  refine ⟨?_, ?_, auxOf_subNibble mode a b bin, describes_of ?_ ?_ ?_⟩
  · simp only [sub8, low8_toNat, hw]
    omega
  · simp only [sub8, carryOf8, getLsbD_eq_decide, hw, decide_eq_decide]
    omega
  · simp only [sub8, signOf_low8]
  · simp only [sub8, zeroOf_low8]
  · simp only [sub8, parityOf_low8]

/-- `Logic8` gives the flags of a bitwise operation. -/
theorem logic8_isBitwise (op : LogicOp) (a b : Byte) :
    IsBitwise (op.apply a b) (op.aux a b) (logic8 op a b).2 :=
  ⟨rfl, rfl, describes_of rfl rfl rfl⟩

@[simp] theorem logic8_fst (op : LogicOp) (a b : Byte) : (logic8 op a b).1 = op.apply a b := rfl

/-- The increment of INR. -/
theorem inc8_spec (v : Byte) (f : Flags) :
    (inc8 v f).1.toNat = (v.toNat + 1) % 256 ∧ Describes (inc8 v f).2 (inc8 v f).1 ∧
      (inc8 v f).2.ac = decide (v.toNat % 16 = 15) ∧ (inc8 v f).2.cy = f.cy := by
  refine ⟨by simp [inc8], setSZP_describes _ _, ?_, rfl⟩
  simp only [inc8, Flags.setSZP_ac, beq_eq_decide, ← BitVec.toNat_inj, nibble_toNat]
  rfl

/-- The decrement of DCR. -/
theorem dec8_spec (mode : SubAuxMode) (v : Byte) (f : Flags) :
    (dec8 mode v f).1.toNat = (v.toNat + 255) % 256 ∧
      Describes (dec8 mode v f).2 (dec8 mode v f).1 ∧
      (dec8 mode v f).2.ac = subAux mode v 1#8 false ∧ (dec8 mode v f).2.cy = f.cy := by
  have hv := v.isLt
  refine ⟨?_, setSZP_describes _ _, ?_, rfl⟩
  · simp only [dec8, BitVec.toNat_sub, BitVec.toNat_ofNat]
    omega
  · have h1 : bitNat false = 0 := rfl
    cases mode
    · simp only [dec8, Flags.setSZP_ac, subAux, bne, beq_eq_decide, ← decide_not, decide_eq_decide,
        ← BitVec.toNat_inj, nibble_toNat, BitVec.toNat_ofNat, h1]
      omega
    · simp only [dec8, Flags.setSZP_ac, subAux, beq_eq_decide, decide_eq_decide, ← BitVec.toNat_inj,
        nibble_toNat, BitVec.toNat_ofNat, h1]
      omega

/-- The double-byte addition of DAD. -/
theorem add16_spec (x y : Word) :
    (add16 x y).1.toNat = (x.toNat + y.toNat) % 65536 ∧
      (add16 x y).2 = decide (65536 ≤ x.toNat + y.toNat) := by
  have hx := x.isLt
  have hy := y.isLt
  have hw : (x.setWidth 32 + y.setWidth 32).toNat = x.toNat + y.toNat := by
    simp only [BitVec.toNat_add, BitVec.toNat_setWidth]
    omega
  refine ⟨?_, ?_⟩
  · simp only [add16, BitVec.extractLsb'_toNat, hw]
    simp
  · simp only [add16, carryOf16, getLsbD_eq_decide, hw, decide_eq_decide]
    omega

/-- The decimal adjustment of DAA: the two steps over the natural numbers. -/
theorem daa8_spec (a : Byte) (f : Flags) : ∃ six sixty : Nat,
    six = (if 9 < a.toNat % 16 ∨ f.ac = true then 6 else 0) ∧
      sixty = (if 9 < (a.toNat + six) / 16 ∨ f.cy = true then 0x60 else 0) ∧
      (daa8 a f).1.toNat = (a.toNat + six + sixty) % 256 ∧
      (daa8 a f).2.ac = decide (16 ≤ a.toNat % 16 + six) ∧
      (daa8 a f).2.cy = decide (sixty = 0x60) ∧ Describes (daa8 a f).2 (daa8 a f).1 := by
  have ha := a.isLt
  have h9 : (9#16 < nibble a) ↔ 9 < a.toNat % 16 := by
    rw [BitVec.lt_def, nibble_toNat]
    rfl
  generalize hsix : (if 9 < a.toNat % 16 ∨ f.ac = true then 6 else 0 : Nat) = six
  have hle : six ≤ 6 := by rw [← hsix]; split <;> omega
  have hx : (if (decide (9#16 < nibble a) || f.ac) = true then 6#16 else 0#16).toNat = six := by
    rw [← hsix]
    simp only [Bool.or_eq_true, decide_eq_true_eq, h9]
    split <;> rfl
  generalize hb : (if (decide (9#16 < nibble a) || f.ac) = true then 6#16 else 0#16) = x at hx
  have ht : (a.setWidth 16 + x).toNat = a.toNat + six := by
    simp only [BitVec.toNat_add, BitVec.toNat_setWidth, hx]
    omega
  have h9' : (9#16 < (a.setWidth 16 + x) >>> 4) ↔ 9 < (a.toNat + six) / 16 := by
    rw [BitVec.lt_def, BitVec.toNat_ushiftRight, ht, Nat.shiftRight_eq_div_pow]
    rfl
  refine ⟨six, _, rfl, rfl, ?_, ?_, ?_, ?_⟩
  · simp only [daa8, hb, low8_toNat]
    rw [BitVec.toNat_add, ht]
    simp only [Bool.or_eq_true, decide_eq_true_eq, h9']
    split <;> simp only [BitVec.toNat_ofNat] <;> omega
  · simp only [daa8, hb, Flags.setSZP_ac, auxOf, getLsbD_eq_decide, BitVec.toNat_add, nibble_toNat, hx,
      decide_eq_decide]
    omega
  · simp only [daa8, hb, Flags.setSZP_cy, h9']
    by_cases h : 9 < (a.toNat + six) / 16 <;> cases f.cy <;> simp [h]
  · exact setSZP_describes _ _

/-- Seven bits beside one: the arithmetic of the rotates. -/
theorem append_bit_toNat (x : BitVec 7) (b : Bool) :
    (x ++ BitVec.ofBool b).toNat = x.toNat * 2 + bitNat b := by
  rw [BitVec.toNat_append, ← Nat.shiftLeft_add_eq_or_of_lt (BitVec.ofBool b).isLt, Nat.shiftLeft_eq]
  cases b <;> rfl

theorem bit_append_toNat (b : Bool) (x : BitVec 7) :
    (BitVec.ofBool b ++ x).toNat = bitNat b * 128 + x.toNat := by
  rw [BitVec.toNat_append, ← Nat.shiftLeft_add_eq_or_of_lt x.isLt, Nat.shiftLeft_eq]
  cases b <;> rfl

theorem low7_toNat (a : Byte) : (a.extractLsb' 0 7).toNat = a.toNat % 128 := by simp

theorem high7_toNat (a : Byte) : (a.extractLsb' 1 7).toNat = a.toNat / 2 := by
  have := a.isLt
  rw [BitVec.extractLsb'_toNat, Nat.shiftRight_eq_div_pow]
  omega

theorem bitNat_getLsbD (a : Byte) (k : Nat) : bitNat (a.getLsbD k) = a.toNat / 2 ^ k % 2 := by
  rw [getLsbD_eq_decide, bitNat]
  have := Nat.mod_two_eq_zero_or_one (a.toNat / 2 ^ k)
  by_cases h : a.toNat / 2 ^ k % 2 = 1 <;> simp [h]
  omega

/-- The rotated accumulator over the natural numbers. -/
theorem rotate_toNat (op : RotateOp) (a : Byte) (cy : Bool) :
    (op.apply a cy).toNat =
      match op with
      | .rlc => a.toNat * 2 % 256 + a.toNat / 128
      | .rrc => a.toNat / 2 + a.toNat % 2 * 128
      | .ral => a.toNat * 2 % 256 + bitNat cy
      | .rar => a.toNat / 2 + bitNat cy * 128 := by
  have := a.isLt
  cases op <;> simp only [RotateOp.apply, append_bit_toNat, bit_append_toNat, low7_toNat, high7_toNat,
    bitNat_getLsbD] <;> omega

/-- The bit that a rotate moves out of the accumulator. -/
theorem rotate_carry (op : RotateOp) (a : Byte) :
    op.carry a =
      match op with
      | .rlc => decide (128 ≤ a.toNat)
      | .rrc => decide (a.toNat % 2 = 1)
      | .ral => decide (128 ≤ a.toNat)
      | .rar => decide (a.toNat % 2 = 1) := by
  have := a.isLt
  cases op <;> simp only [RotateOp.carry, getLsbD_eq_decide, decide_eq_decide] <;> omega

end Sys2Proof.Machine
end

