-- ==== Sys2Proof/Laws/Memory.lean ====
section
/-! SUPPORT. The memory laws: a read after a write, and every write keeps the canonical form. -/

namespace Sys2Proof.Machine

theorem Memory.wfFrom_mono {m : Memory} {lo hi : Nat} (h : lo ≤ hi) (hm : Memory.wfFrom hi m = true) :
    Memory.wfFrom lo m = true := by
  cases m with
  | nil => rfl
  | cons p rest =>
    obtain ⟨k, v⟩ := p
    simp only [Memory.wfFrom, Bool.and_eq_true, decide_eq_true_eq] at hm ⊢
    exact ⟨⟨⟨by omega, hm.1.1.2⟩, hm.1.2⟩, hm.2⟩

/-- Below the lowest address listed, memory reads as unlisted. -/
theorem Memory.read_below {m : Memory} {lo a : Nat} (hm : Memory.wfFrom lo m = true) (h : a < lo) :
    Memory.read m a = unlistedByte := by
  induction m generalizing lo with
  | nil => rfl
  | cons p rest ih =>
    obtain ⟨k, v⟩ := p
    simp only [Memory.wfFrom, Bool.and_eq_true, decide_eq_true_eq] at hm
    have hk : k ≠ a := by omega
    simp only [Memory.read, hk, if_false]
    exact ih hm.2 (by omega)

/-- A write keeps the canonical form. -/
theorem Memory.wfFrom_write {m : Memory} {lo a : Nat} {v : Byte} (hm : Memory.wfFrom lo m = true)
    (hlo : lo ≤ a) (ha : a < 65536) : Memory.wfFrom lo (Memory.write m a v) = true := by
  induction m generalizing lo with
  | nil => by_cases hv : v = unlistedByte <;> simp [Memory.write, Memory.wfFrom, hv, hlo, ha]
  | cons p rest ih =>
    obtain ⟨k, w⟩ := p
    have hm' := hm
    simp only [Memory.wfFrom, Bool.and_eq_true, decide_eq_true_eq] at hm
    obtain ⟨⟨⟨h1, h2⟩, h3⟩, h4⟩ := hm
    by_cases hak : a < k
    · by_cases hv : v = unlistedByte
      · simpa [Memory.write, hak, hv] using hm'
      · simp only [Memory.write, hak, hv, if_true, if_false, Memory.wfFrom, Bool.and_eq_true,
          decide_eq_true_eq]
        exact ⟨⟨⟨hlo, ha⟩, by simpa using hv⟩, ⟨⟨by omega, h2⟩, h3⟩, h4⟩
    · by_cases hk : a = k
      · subst hk
        by_cases hv : v = unlistedByte
        · simpa [Memory.write, hv] using Memory.wfFrom_mono (by omega) h4
        · simp only [Memory.write, hak, hv, if_true, if_false, Memory.wfFrom, Bool.and_eq_true,
            decide_eq_true_eq]
          exact ⟨⟨⟨hlo, ha⟩, by simpa using hv⟩, h4⟩
      · simp only [Memory.write, hak, hk, if_false, Memory.wfFrom, Bool.and_eq_true, decide_eq_true_eq]
        exact ⟨⟨⟨h1, h2⟩, h3⟩, ih h4 (by omega)⟩

theorem Memory.wf_write {m : Memory} {a : Nat} {v : Byte} (hm : m.wf = true) (ha : a < 65536) :
    Memory.wf (Memory.write m a v) = true := Memory.wfFrom_write hm (Nat.zero_le a) ha

/-- A write leaves every other address alone. -/
theorem Memory.read_write_ne (m : Memory) {a b : Nat} (v : Byte) (h : b ≠ a) :
    Memory.read (Memory.write m a v) b = Memory.read m b := by
  induction m with
  | nil => by_cases hv : v = unlistedByte <;> simp [Memory.write, Memory.read, hv, Ne.symm h]
  | cons p rest ih =>
    obtain ⟨k, w⟩ := p
    by_cases hak : a < k
    · by_cases hv : v = unlistedByte <;> simp [Memory.write, Memory.read, hak, hv, Ne.symm h]
    · by_cases hk : a = k
      · subst hk
        by_cases hv : v = unlistedByte <;> simp [Memory.write, Memory.read, hv, Ne.symm h]
      · simp [Memory.write, Memory.read, hak, hk, ih]

/-- A read at the address written gives the byte written. -/
theorem Memory.read_write_self {m : Memory} {lo a : Nat} (v : Byte) (hm : Memory.wfFrom lo m = true) :
    Memory.read (Memory.write m a v) a = v := by
  induction m generalizing lo with
  | nil => by_cases hv : v = unlistedByte <;> simp [Memory.write, Memory.read, hv]
  | cons p rest ih =>
    obtain ⟨k, w⟩ := p
    have hm' := hm
    simp only [Memory.wfFrom, Bool.and_eq_true, decide_eq_true_eq] at hm
    by_cases hak : a < k
    · by_cases hv : v = unlistedByte
      · have hr : Memory.wfFrom k ((k, w) :: rest) = true := by
          simp only [Memory.wfFrom, Bool.and_eq_true, decide_eq_true_eq]
          exact ⟨⟨⟨le_refl k, hm.1.1.2⟩, hm.1.2⟩, hm.2⟩
        simpa [Memory.write, hak, hv] using Memory.read_below hr hak
      · simp [Memory.write, Memory.read, hak, hv]
    · by_cases hk : a = k
      · subst hk
        by_cases hv : v = unlistedByte
        · simpa [Memory.write, hv] using Memory.read_below hm.2 (Nat.lt_succ_self a)
        · simp [Memory.write, Memory.read, hv]
      · simp only [Memory.write, hak, hk, if_false, Memory.read, Ne.symm hk]
        exact ih hm.2

/-- The read-after-write law of a memory in canonical form. -/
theorem Memory.read_write {m : Memory} {a b : Nat} (v : Byte) (hm : m.wf = true) :
    Memory.read (Memory.write m a v) b = if b = a then v else Memory.read m b := by
  by_cases h : b = a
  · subst h
    simpa using Memory.read_write_self v hm
  · simpa [h] using Memory.read_write_ne m v h

end Sys2Proof.Machine
end

