-- ==== Sys2Proof/Laws/State.lean ====
section
/-! SUPPORT. One lemma per field and update of State, each true by rfl, and the register file's own law. -/

namespace Sys2Proof.Machine

@[simp] theorem Regs.get_set (x : Regs) (r q : Reg) (v : Byte) :
    (x.set r v).get q = if q = r then v else x.get q := by
  cases r <;> cases q <;> rfl

/-! ### setReg -/

@[simp] theorem State.setReg_regs (s : State) (r : Reg) (v : Byte) :
    (s.setReg r v).regs = s.regs.set r v := rfl
@[simp] theorem State.setReg_pc (s : State) (r : Reg) (v : Byte) :
    (s.setReg r v).pc = s.pc := rfl
@[simp] theorem State.setReg_sp (s : State) (r : Reg) (v : Byte) :
    (s.setReg r v).sp = s.sp := rfl
@[simp] theorem State.setReg_flags (s : State) (r : Reg) (v : Byte) :
    (s.setReg r v).flags = s.flags := rfl
@[simp] theorem State.setReg_cycles (s : State) (r : Reg) (v : Byte) :
    (s.setReg r v).cycles = s.cycles := rfl
@[simp] theorem State.setReg_inte (s : State) (r : Reg) (v : Byte) :
    (s.setReg r v).inte = s.inte := rfl
@[simp] theorem State.setReg_halted (s : State) (r : Reg) (v : Byte) :
    (s.setReg r v).halted = s.halted := rfl
@[simp] theorem State.setReg_cfg (s : State) (r : Reg) (v : Byte) :
    (s.setReg r v).cfg = s.cfg := rfl
@[simp] theorem State.setReg_memMap (s : State) (r : Reg) (v : Byte) :
    (s.setReg r v).memMap = s.memMap := rfl
@[simp] theorem State.setReg_mem (s : State) (r : Reg) (v : Byte) :
    (s.setReg r v).mem = s.mem := rfl
@[simp] theorem State.setReg_ioMap (s : State) (r : Reg) (v : Byte) :
    (s.setReg r v).ioMap = s.ioMap := rfl
@[simp] theorem State.setReg_ioOut (s : State) (r : Reg) (v : Byte) :
    (s.setReg r v).ioOut = s.ioOut := rfl
@[simp] theorem State.setReg_busCount (s : State) (r : Reg) (v : Byte) :
    (s.setReg r v).busCount = s.busCount := rfl
@[simp] theorem State.setReg_out (s : State) (r : Reg) (v : Byte) :
    (s.setReg r v).out = s.out := rfl
@[simp] theorem State.setReg_cell (s : State) (r : Reg) (v : Byte) (x : Word) :
    (s.setReg r v).cell x = s.cell x := rfl
@[simp] theorem State.setReg_answer (s : State) (r : Reg) (v : Byte) (k : Nat) (x : Word) :
    (s.setReg r v).answer k x = s.answer k x := rfl

/-! ### setSp -/

@[simp] theorem State.setSp_regs (s : State) (w : Word) :
    (s.setSp w).regs = s.regs := rfl
@[simp] theorem State.setSp_pc (s : State) (w : Word) :
    (s.setSp w).pc = s.pc := rfl
@[simp] theorem State.setSp_sp (s : State) (w : Word) :
    (s.setSp w).sp = w := rfl
@[simp] theorem State.setSp_flags (s : State) (w : Word) :
    (s.setSp w).flags = s.flags := rfl
@[simp] theorem State.setSp_cycles (s : State) (w : Word) :
    (s.setSp w).cycles = s.cycles := rfl
@[simp] theorem State.setSp_inte (s : State) (w : Word) :
    (s.setSp w).inte = s.inte := rfl
@[simp] theorem State.setSp_halted (s : State) (w : Word) :
    (s.setSp w).halted = s.halted := rfl
@[simp] theorem State.setSp_cfg (s : State) (w : Word) :
    (s.setSp w).cfg = s.cfg := rfl
@[simp] theorem State.setSp_memMap (s : State) (w : Word) :
    (s.setSp w).memMap = s.memMap := rfl
@[simp] theorem State.setSp_mem (s : State) (w : Word) :
    (s.setSp w).mem = s.mem := rfl
@[simp] theorem State.setSp_ioMap (s : State) (w : Word) :
    (s.setSp w).ioMap = s.ioMap := rfl
@[simp] theorem State.setSp_ioOut (s : State) (w : Word) :
    (s.setSp w).ioOut = s.ioOut := rfl
@[simp] theorem State.setSp_busCount (s : State) (w : Word) :
    (s.setSp w).busCount = s.busCount := rfl
@[simp] theorem State.setSp_out (s : State) (w : Word) :
    (s.setSp w).out = s.out := rfl
@[simp] theorem State.setSp_reg (s : State) (w : Word) (q : Reg) :
    (s.setSp w).reg q = s.reg q := rfl
@[simp] theorem State.setSp_pair (s : State) (w : Word) (p : Pair) :
    (s.setSp w).pair p = s.pair p := rfl
@[simp] theorem State.setSp_hl (s : State) (w : Word) : (s.setSp w).hl = s.hl := rfl
@[simp] theorem State.setSp_cell (s : State) (w : Word) (x : Word) :
    (s.setSp w).cell x = s.cell x := rfl
@[simp] theorem State.setSp_answer (s : State) (w : Word) (k : Nat) (x : Word) :
    (s.setSp w).answer k x = s.answer k x := rfl

/-! ### setPc -/

@[simp] theorem State.setPc_regs (s : State) (w : Word) :
    (s.setPc w).regs = s.regs := rfl
@[simp] theorem State.setPc_pc (s : State) (w : Word) :
    (s.setPc w).pc = w := rfl
@[simp] theorem State.setPc_sp (s : State) (w : Word) :
    (s.setPc w).sp = s.sp := rfl
@[simp] theorem State.setPc_flags (s : State) (w : Word) :
    (s.setPc w).flags = s.flags := rfl
@[simp] theorem State.setPc_cycles (s : State) (w : Word) :
    (s.setPc w).cycles = s.cycles := rfl
@[simp] theorem State.setPc_inte (s : State) (w : Word) :
    (s.setPc w).inte = s.inte := rfl
@[simp] theorem State.setPc_halted (s : State) (w : Word) :
    (s.setPc w).halted = s.halted := rfl
@[simp] theorem State.setPc_cfg (s : State) (w : Word) :
    (s.setPc w).cfg = s.cfg := rfl
@[simp] theorem State.setPc_memMap (s : State) (w : Word) :
    (s.setPc w).memMap = s.memMap := rfl
@[simp] theorem State.setPc_mem (s : State) (w : Word) :
    (s.setPc w).mem = s.mem := rfl
@[simp] theorem State.setPc_ioMap (s : State) (w : Word) :
    (s.setPc w).ioMap = s.ioMap := rfl
@[simp] theorem State.setPc_ioOut (s : State) (w : Word) :
    (s.setPc w).ioOut = s.ioOut := rfl
@[simp] theorem State.setPc_busCount (s : State) (w : Word) :
    (s.setPc w).busCount = s.busCount := rfl
@[simp] theorem State.setPc_out (s : State) (w : Word) :
    (s.setPc w).out = s.out := rfl
@[simp] theorem State.setPc_reg (s : State) (w : Word) (q : Reg) :
    (s.setPc w).reg q = s.reg q := rfl
@[simp] theorem State.setPc_pair (s : State) (w : Word) (p : Pair) :
    (s.setPc w).pair p = s.pair p := rfl
@[simp] theorem State.setPc_hl (s : State) (w : Word) : (s.setPc w).hl = s.hl := rfl
@[simp] theorem State.setPc_cell (s : State) (w : Word) (x : Word) :
    (s.setPc w).cell x = s.cell x := rfl
@[simp] theorem State.setPc_answer (s : State) (w : Word) (k : Nat) (x : Word) :
    (s.setPc w).answer k x = s.answer k x := rfl

/-! ### setFlags -/

@[simp] theorem State.setFlags_regs (s : State) (f : Flags) :
    (s.setFlags f).regs = s.regs := rfl
@[simp] theorem State.setFlags_pc (s : State) (f : Flags) :
    (s.setFlags f).pc = s.pc := rfl
@[simp] theorem State.setFlags_sp (s : State) (f : Flags) :
    (s.setFlags f).sp = s.sp := rfl
@[simp] theorem State.setFlags_flags (s : State) (f : Flags) :
    (s.setFlags f).flags = f := rfl
@[simp] theorem State.setFlags_cycles (s : State) (f : Flags) :
    (s.setFlags f).cycles = s.cycles := rfl
@[simp] theorem State.setFlags_inte (s : State) (f : Flags) :
    (s.setFlags f).inte = s.inte := rfl
@[simp] theorem State.setFlags_halted (s : State) (f : Flags) :
    (s.setFlags f).halted = s.halted := rfl
@[simp] theorem State.setFlags_cfg (s : State) (f : Flags) :
    (s.setFlags f).cfg = s.cfg := rfl
@[simp] theorem State.setFlags_memMap (s : State) (f : Flags) :
    (s.setFlags f).memMap = s.memMap := rfl
@[simp] theorem State.setFlags_mem (s : State) (f : Flags) :
    (s.setFlags f).mem = s.mem := rfl
@[simp] theorem State.setFlags_ioMap (s : State) (f : Flags) :
    (s.setFlags f).ioMap = s.ioMap := rfl
@[simp] theorem State.setFlags_ioOut (s : State) (f : Flags) :
    (s.setFlags f).ioOut = s.ioOut := rfl
@[simp] theorem State.setFlags_busCount (s : State) (f : Flags) :
    (s.setFlags f).busCount = s.busCount := rfl
@[simp] theorem State.setFlags_out (s : State) (f : Flags) :
    (s.setFlags f).out = s.out := rfl
@[simp] theorem State.setFlags_reg (s : State) (f : Flags) (q : Reg) :
    (s.setFlags f).reg q = s.reg q := rfl
@[simp] theorem State.setFlags_pair (s : State) (f : Flags) (p : Pair) :
    (s.setFlags f).pair p = s.pair p := rfl
@[simp] theorem State.setFlags_hl (s : State) (f : Flags) : (s.setFlags f).hl = s.hl := rfl
@[simp] theorem State.setFlags_cell (s : State) (f : Flags) (x : Word) :
    (s.setFlags f).cell x = s.cell x := rfl
@[simp] theorem State.setFlags_answer (s : State) (f : Flags) (k : Nat) (x : Word) :
    (s.setFlags f).answer k x = s.answer k x := rfl

/-! ### setCarry -/

@[simp] theorem State.setCarry_regs (s : State) (b : Bool) :
    (s.setCarry b).regs = s.regs := rfl
@[simp] theorem State.setCarry_pc (s : State) (b : Bool) :
    (s.setCarry b).pc = s.pc := rfl
@[simp] theorem State.setCarry_sp (s : State) (b : Bool) :
    (s.setCarry b).sp = s.sp := rfl
@[simp] theorem State.setCarry_flags (s : State) (b : Bool) :
    (s.setCarry b).flags = { s.flags with cy := b } := rfl
@[simp] theorem State.setCarry_cycles (s : State) (b : Bool) :
    (s.setCarry b).cycles = s.cycles := rfl
@[simp] theorem State.setCarry_inte (s : State) (b : Bool) :
    (s.setCarry b).inte = s.inte := rfl
@[simp] theorem State.setCarry_halted (s : State) (b : Bool) :
    (s.setCarry b).halted = s.halted := rfl
@[simp] theorem State.setCarry_cfg (s : State) (b : Bool) :
    (s.setCarry b).cfg = s.cfg := rfl
@[simp] theorem State.setCarry_memMap (s : State) (b : Bool) :
    (s.setCarry b).memMap = s.memMap := rfl
@[simp] theorem State.setCarry_mem (s : State) (b : Bool) :
    (s.setCarry b).mem = s.mem := rfl
@[simp] theorem State.setCarry_ioMap (s : State) (b : Bool) :
    (s.setCarry b).ioMap = s.ioMap := rfl
@[simp] theorem State.setCarry_ioOut (s : State) (b : Bool) :
    (s.setCarry b).ioOut = s.ioOut := rfl
@[simp] theorem State.setCarry_busCount (s : State) (b : Bool) :
    (s.setCarry b).busCount = s.busCount := rfl
@[simp] theorem State.setCarry_out (s : State) (b : Bool) :
    (s.setCarry b).out = s.out := rfl
@[simp] theorem State.setCarry_reg (s : State) (b : Bool) (q : Reg) :
    (s.setCarry b).reg q = s.reg q := rfl
@[simp] theorem State.setCarry_pair (s : State) (b : Bool) (p : Pair) :
    (s.setCarry b).pair p = s.pair p := rfl
@[simp] theorem State.setCarry_hl (s : State) (b : Bool) : (s.setCarry b).hl = s.hl := rfl
@[simp] theorem State.setCarry_cell (s : State) (b : Bool) (x : Word) :
    (s.setCarry b).cell x = s.cell x := rfl
@[simp] theorem State.setCarry_answer (s : State) (b : Bool) (k : Nat) (x : Word) :
    (s.setCarry b).answer k x = s.answer k x := rfl

/-! ### setInte -/

@[simp] theorem State.setInte_regs (s : State) (b : Bool) :
    (s.setInte b).regs = s.regs := rfl
@[simp] theorem State.setInte_pc (s : State) (b : Bool) :
    (s.setInte b).pc = s.pc := rfl
@[simp] theorem State.setInte_sp (s : State) (b : Bool) :
    (s.setInte b).sp = s.sp := rfl
@[simp] theorem State.setInte_flags (s : State) (b : Bool) :
    (s.setInte b).flags = s.flags := rfl
@[simp] theorem State.setInte_cycles (s : State) (b : Bool) :
    (s.setInte b).cycles = s.cycles := rfl
@[simp] theorem State.setInte_inte (s : State) (b : Bool) :
    (s.setInte b).inte = b := rfl
@[simp] theorem State.setInte_halted (s : State) (b : Bool) :
    (s.setInte b).halted = s.halted := rfl
@[simp] theorem State.setInte_cfg (s : State) (b : Bool) :
    (s.setInte b).cfg = s.cfg := rfl
@[simp] theorem State.setInte_memMap (s : State) (b : Bool) :
    (s.setInte b).memMap = s.memMap := rfl
@[simp] theorem State.setInte_mem (s : State) (b : Bool) :
    (s.setInte b).mem = s.mem := rfl
@[simp] theorem State.setInte_ioMap (s : State) (b : Bool) :
    (s.setInte b).ioMap = s.ioMap := rfl
@[simp] theorem State.setInte_ioOut (s : State) (b : Bool) :
    (s.setInte b).ioOut = s.ioOut := rfl
@[simp] theorem State.setInte_busCount (s : State) (b : Bool) :
    (s.setInte b).busCount = s.busCount := rfl
@[simp] theorem State.setInte_out (s : State) (b : Bool) :
    (s.setInte b).out = s.out := rfl
@[simp] theorem State.setInte_reg (s : State) (b : Bool) (q : Reg) :
    (s.setInte b).reg q = s.reg q := rfl
@[simp] theorem State.setInte_pair (s : State) (b : Bool) (p : Pair) :
    (s.setInte b).pair p = s.pair p := rfl
@[simp] theorem State.setInte_hl (s : State) (b : Bool) : (s.setInte b).hl = s.hl := rfl
@[simp] theorem State.setInte_cell (s : State) (b : Bool) (x : Word) :
    (s.setInte b).cell x = s.cell x := rfl
@[simp] theorem State.setInte_answer (s : State) (b : Bool) (k : Nat) (x : Word) :
    (s.setInte b).answer k x = s.answer k x := rfl

/-! ### setHalted -/

@[simp] theorem State.setHalted_regs (s : State) (b : Bool) :
    (s.setHalted b).regs = s.regs := rfl
@[simp] theorem State.setHalted_pc (s : State) (b : Bool) :
    (s.setHalted b).pc = s.pc := rfl
@[simp] theorem State.setHalted_sp (s : State) (b : Bool) :
    (s.setHalted b).sp = s.sp := rfl
@[simp] theorem State.setHalted_flags (s : State) (b : Bool) :
    (s.setHalted b).flags = s.flags := rfl
@[simp] theorem State.setHalted_cycles (s : State) (b : Bool) :
    (s.setHalted b).cycles = s.cycles := rfl
@[simp] theorem State.setHalted_inte (s : State) (b : Bool) :
    (s.setHalted b).inte = s.inte := rfl
@[simp] theorem State.setHalted_halted (s : State) (b : Bool) :
    (s.setHalted b).halted = b := rfl
@[simp] theorem State.setHalted_cfg (s : State) (b : Bool) :
    (s.setHalted b).cfg = s.cfg := rfl
@[simp] theorem State.setHalted_memMap (s : State) (b : Bool) :
    (s.setHalted b).memMap = s.memMap := rfl
@[simp] theorem State.setHalted_mem (s : State) (b : Bool) :
    (s.setHalted b).mem = s.mem := rfl
@[simp] theorem State.setHalted_ioMap (s : State) (b : Bool) :
    (s.setHalted b).ioMap = s.ioMap := rfl
@[simp] theorem State.setHalted_ioOut (s : State) (b : Bool) :
    (s.setHalted b).ioOut = s.ioOut := rfl
@[simp] theorem State.setHalted_busCount (s : State) (b : Bool) :
    (s.setHalted b).busCount = s.busCount := rfl
@[simp] theorem State.setHalted_out (s : State) (b : Bool) :
    (s.setHalted b).out = s.out := rfl
@[simp] theorem State.setHalted_reg (s : State) (b : Bool) (q : Reg) :
    (s.setHalted b).reg q = s.reg q := rfl
@[simp] theorem State.setHalted_pair (s : State) (b : Bool) (p : Pair) :
    (s.setHalted b).pair p = s.pair p := rfl
@[simp] theorem State.setHalted_hl (s : State) (b : Bool) : (s.setHalted b).hl = s.hl := rfl
@[simp] theorem State.setHalted_cell (s : State) (b : Bool) (x : Word) :
    (s.setHalted b).cell x = s.cell x := rfl
@[simp] theorem State.setHalted_answer (s : State) (b : Bool) (k : Nat) (x : Word) :
    (s.setHalted b).answer k x = s.answer k x := rfl

/-! ### addCycles -/

@[simp] theorem State.addCycles_regs (s : State) (n : Nat) :
    (s.addCycles n).regs = s.regs := rfl
@[simp] theorem State.addCycles_pc (s : State) (n : Nat) :
    (s.addCycles n).pc = s.pc := rfl
@[simp] theorem State.addCycles_sp (s : State) (n : Nat) :
    (s.addCycles n).sp = s.sp := rfl
@[simp] theorem State.addCycles_flags (s : State) (n : Nat) :
    (s.addCycles n).flags = s.flags := rfl
@[simp] theorem State.addCycles_cycles (s : State) (n : Nat) :
    (s.addCycles n).cycles = s.cycles + BitVec.ofNat 64 n := rfl
@[simp] theorem State.addCycles_inte (s : State) (n : Nat) :
    (s.addCycles n).inte = s.inte := rfl
@[simp] theorem State.addCycles_halted (s : State) (n : Nat) :
    (s.addCycles n).halted = s.halted := rfl
@[simp] theorem State.addCycles_cfg (s : State) (n : Nat) :
    (s.addCycles n).cfg = s.cfg := rfl
@[simp] theorem State.addCycles_memMap (s : State) (n : Nat) :
    (s.addCycles n).memMap = s.memMap := rfl
@[simp] theorem State.addCycles_mem (s : State) (n : Nat) :
    (s.addCycles n).mem = s.mem := rfl
@[simp] theorem State.addCycles_ioMap (s : State) (n : Nat) :
    (s.addCycles n).ioMap = s.ioMap := rfl
@[simp] theorem State.addCycles_ioOut (s : State) (n : Nat) :
    (s.addCycles n).ioOut = s.ioOut := rfl
@[simp] theorem State.addCycles_busCount (s : State) (n : Nat) :
    (s.addCycles n).busCount = s.busCount := rfl
@[simp] theorem State.addCycles_out (s : State) (n : Nat) :
    (s.addCycles n).out = s.out := rfl
@[simp] theorem State.addCycles_reg (s : State) (n : Nat) (q : Reg) :
    (s.addCycles n).reg q = s.reg q := rfl
@[simp] theorem State.addCycles_pair (s : State) (n : Nat) (p : Pair) :
    (s.addCycles n).pair p = s.pair p := rfl
@[simp] theorem State.addCycles_hl (s : State) (n : Nat) : (s.addCycles n).hl = s.hl := rfl
@[simp] theorem State.addCycles_cell (s : State) (n : Nat) (x : Word) :
    (s.addCycles n).cell x = s.cell x := rfl
@[simp] theorem State.addCycles_answer (s : State) (n : Nat) (k : Nat) (x : Word) :
    (s.addCycles n).answer k x = s.answer k x := rfl

/-! ### note -/

@[simp] theorem State.note_regs (s : State) (e : BusEvent) :
    (s.note e).regs = s.regs := rfl
@[simp] theorem State.note_pc (s : State) (e : BusEvent) :
    (s.note e).pc = s.pc := rfl
@[simp] theorem State.note_sp (s : State) (e : BusEvent) :
    (s.note e).sp = s.sp := rfl
@[simp] theorem State.note_flags (s : State) (e : BusEvent) :
    (s.note e).flags = s.flags := rfl
@[simp] theorem State.note_cycles (s : State) (e : BusEvent) :
    (s.note e).cycles = s.cycles := rfl
@[simp] theorem State.note_inte (s : State) (e : BusEvent) :
    (s.note e).inte = s.inte := rfl
@[simp] theorem State.note_halted (s : State) (e : BusEvent) :
    (s.note e).halted = s.halted := rfl
@[simp] theorem State.note_cfg (s : State) (e : BusEvent) :
    (s.note e).cfg = s.cfg := rfl
@[simp] theorem State.note_memMap (s : State) (e : BusEvent) :
    (s.note e).memMap = s.memMap := rfl
@[simp] theorem State.note_mem (s : State) (e : BusEvent) :
    (s.note e).mem = s.mem := rfl
@[simp] theorem State.note_ioMap (s : State) (e : BusEvent) :
    (s.note e).ioMap = s.ioMap := rfl
@[simp] theorem State.note_ioOut (s : State) (e : BusEvent) :
    (s.note e).ioOut = s.ioOut := rfl
@[simp] theorem State.note_busCount (s : State) (e : BusEvent) :
    (s.note e).busCount = s.busCount + 1 := rfl
@[simp] theorem State.note_out (s : State) (e : BusEvent) :
    (s.note e).out = { s.out with bus := s.out.bus ++ [e] } := rfl
@[simp] theorem State.note_reg (s : State) (e : BusEvent) (q : Reg) :
    (s.note e).reg q = s.reg q := rfl
@[simp] theorem State.note_pair (s : State) (e : BusEvent) (p : Pair) :
    (s.note e).pair p = s.pair p := rfl
@[simp] theorem State.note_hl (s : State) (e : BusEvent) : (s.note e).hl = s.hl := rfl
@[simp] theorem State.note_cell (s : State) (e : BusEvent) (x : Word) :
    (s.note e).cell x = s.cell x := rfl

/-! ### beginStep -/

@[simp] theorem State.beginStep_regs (s : State) :
    (s.beginStep).regs = s.regs := rfl
@[simp] theorem State.beginStep_pc (s : State) :
    (s.beginStep).pc = s.pc := rfl
@[simp] theorem State.beginStep_sp (s : State) :
    (s.beginStep).sp = s.sp := rfl
@[simp] theorem State.beginStep_flags (s : State) :
    (s.beginStep).flags = s.flags := rfl
@[simp] theorem State.beginStep_cycles (s : State) :
    (s.beginStep).cycles = s.cycles := rfl
@[simp] theorem State.beginStep_inte (s : State) :
    (s.beginStep).inte = s.inte := rfl
@[simp] theorem State.beginStep_halted (s : State) :
    (s.beginStep).halted = s.halted := rfl
@[simp] theorem State.beginStep_cfg (s : State) :
    (s.beginStep).cfg = s.cfg := rfl
@[simp] theorem State.beginStep_memMap (s : State) :
    (s.beginStep).memMap = s.memMap := rfl
@[simp] theorem State.beginStep_mem (s : State) :
    (s.beginStep).mem = s.mem := rfl
@[simp] theorem State.beginStep_ioMap (s : State) :
    (s.beginStep).ioMap = s.ioMap := rfl
@[simp] theorem State.beginStep_ioOut (s : State) :
    (s.beginStep).ioOut = s.ioOut := rfl
@[simp] theorem State.beginStep_busCount (s : State) :
    (s.beginStep).busCount = s.busCount := rfl
@[simp] theorem State.beginStep_out (s : State) :
    (s.beginStep).out = StepOut.empty := rfl
@[simp] theorem State.beginStep_reg (s : State) (q : Reg) :
    (s.beginStep).reg q = s.reg q := rfl
@[simp] theorem State.beginStep_pair (s : State) (p : Pair) :
    (s.beginStep).pair p = s.pair p := rfl
@[simp] theorem State.beginStep_hl (s : State) : (s.beginStep).hl = s.hl := rfl
@[simp] theorem State.beginStep_cell (s : State) (x : Word) :
    (s.beginStep).cell x = s.cell x := rfl
@[simp] theorem State.beginStep_answer (s : State) (k : Nat) (x : Word) :
    (s.beginStep).answer k x = s.answer k x := rfl

/-! ### noteFetch -/

@[simp] theorem State.noteFetch_regs (s : State) (op : Byte) (rv : Resolved) :
    (s.noteFetch op rv).regs = s.regs := rfl
@[simp] theorem State.noteFetch_pc (s : State) (op : Byte) (rv : Resolved) :
    (s.noteFetch op rv).pc = s.pc := rfl
@[simp] theorem State.noteFetch_sp (s : State) (op : Byte) (rv : Resolved) :
    (s.noteFetch op rv).sp = s.sp := rfl
@[simp] theorem State.noteFetch_flags (s : State) (op : Byte) (rv : Resolved) :
    (s.noteFetch op rv).flags = s.flags := rfl
@[simp] theorem State.noteFetch_cycles (s : State) (op : Byte) (rv : Resolved) :
    (s.noteFetch op rv).cycles = s.cycles := rfl
@[simp] theorem State.noteFetch_inte (s : State) (op : Byte) (rv : Resolved) :
    (s.noteFetch op rv).inte = s.inte := rfl
@[simp] theorem State.noteFetch_halted (s : State) (op : Byte) (rv : Resolved) :
    (s.noteFetch op rv).halted = s.halted := rfl
@[simp] theorem State.noteFetch_cfg (s : State) (op : Byte) (rv : Resolved) :
    (s.noteFetch op rv).cfg = s.cfg := rfl
@[simp] theorem State.noteFetch_memMap (s : State) (op : Byte) (rv : Resolved) :
    (s.noteFetch op rv).memMap = s.memMap := rfl
@[simp] theorem State.noteFetch_mem (s : State) (op : Byte) (rv : Resolved) :
    (s.noteFetch op rv).mem = s.mem := rfl
@[simp] theorem State.noteFetch_ioMap (s : State) (op : Byte) (rv : Resolved) :
    (s.noteFetch op rv).ioMap = s.ioMap := rfl
@[simp] theorem State.noteFetch_ioOut (s : State) (op : Byte) (rv : Resolved) :
    (s.noteFetch op rv).ioOut = s.ioOut := rfl
@[simp] theorem State.noteFetch_busCount (s : State) (op : Byte) (rv : Resolved) :
    (s.noteFetch op rv).busCount = s.busCount := rfl
@[simp] theorem State.noteFetch_out (s : State) (op : Byte) (rv : Resolved) :
    (s.noteFetch op rv).out = { s.out with opcode := some op, operand := rv } := rfl
@[simp] theorem State.noteFetch_reg (s : State) (op : Byte) (rv : Resolved) (q : Reg) :
    (s.noteFetch op rv).reg q = s.reg q := rfl
@[simp] theorem State.noteFetch_pair (s : State) (op : Byte) (rv : Resolved) (p : Pair) :
    (s.noteFetch op rv).pair p = s.pair p := rfl
@[simp] theorem State.noteFetch_hl (s : State) (op : Byte) (rv : Resolved) : (s.noteFetch op rv).hl = s.hl := rfl
@[simp] theorem State.noteFetch_cell (s : State) (op : Byte) (rv : Resolved) (x : Word) :
    (s.noteFetch op rv).cell x = s.cell x := rfl
@[simp] theorem State.noteFetch_answer (s : State) (op : Byte) (rv : Resolved) (k : Nat) (x : Word) :
    (s.noteFetch op rv).answer k x = s.answer k x := rfl

/-! ### hostWrite -/

@[simp] theorem State.hostWrite_regs (s : State) (a : Word) (v : Byte) :
    (s.hostWrite a v).regs = s.regs := rfl
@[simp] theorem State.hostWrite_pc (s : State) (a : Word) (v : Byte) :
    (s.hostWrite a v).pc = s.pc := rfl
@[simp] theorem State.hostWrite_sp (s : State) (a : Word) (v : Byte) :
    (s.hostWrite a v).sp = s.sp := rfl
@[simp] theorem State.hostWrite_flags (s : State) (a : Word) (v : Byte) :
    (s.hostWrite a v).flags = s.flags := rfl
@[simp] theorem State.hostWrite_cycles (s : State) (a : Word) (v : Byte) :
    (s.hostWrite a v).cycles = s.cycles := rfl
@[simp] theorem State.hostWrite_inte (s : State) (a : Word) (v : Byte) :
    (s.hostWrite a v).inte = s.inte := rfl
@[simp] theorem State.hostWrite_halted (s : State) (a : Word) (v : Byte) :
    (s.hostWrite a v).halted = s.halted := rfl
@[simp] theorem State.hostWrite_cfg (s : State) (a : Word) (v : Byte) :
    (s.hostWrite a v).cfg = s.cfg := rfl
@[simp] theorem State.hostWrite_memMap (s : State) (a : Word) (v : Byte) :
    (s.hostWrite a v).memMap = s.memMap := rfl
@[simp] theorem State.hostWrite_mem (s : State) (a : Word) (v : Byte) :
    (s.hostWrite a v).mem = s.mem.write a.toNat v := rfl
@[simp] theorem State.hostWrite_ioMap (s : State) (a : Word) (v : Byte) :
    (s.hostWrite a v).ioMap = s.ioMap := rfl
@[simp] theorem State.hostWrite_ioOut (s : State) (a : Word) (v : Byte) :
    (s.hostWrite a v).ioOut = s.ioOut := rfl
@[simp] theorem State.hostWrite_busCount (s : State) (a : Word) (v : Byte) :
    (s.hostWrite a v).busCount = s.busCount := rfl
@[simp] theorem State.hostWrite_out (s : State) (a : Word) (v : Byte) :
    (s.hostWrite a v).out = s.out := rfl
@[simp] theorem State.hostWrite_reg (s : State) (a : Word) (v : Byte) (q : Reg) :
    (s.hostWrite a v).reg q = s.reg q := rfl
@[simp] theorem State.hostWrite_pair (s : State) (a : Word) (v : Byte) (p : Pair) :
    (s.hostWrite a v).pair p = s.pair p := rfl
@[simp] theorem State.hostWrite_hl (s : State) (a : Word) (v : Byte) : (s.hostWrite a v).hl = s.hl := rfl

/-! ### What a written register reads as -/

@[simp] theorem State.setReg_reg (s : State) (r q : Reg) (v : Byte) :
    (s.setReg r v).reg q = if q = r then v else s.reg q := by
  simp [State.reg]

/-- A transaction shifts the index of the answers to come by one. -/
@[simp] theorem State.note_answer (s : State) (e : BusEvent) (k : Nat) (a : Word) :
    (s.note e).answer k a = s.answer (k + 1) a := by
  unfold State.answer
  simp only [State.note_memMap, State.note_busCount, State.note_cell]
  split <;> first | rfl | (congr 1; omega)

end Sys2Proof.Machine
end

