-- ==== Sys2Proof/Laws/Ops.lean ====
section
/-! SUPPORT. The shared operations: what each leaves alone, then what each does. -/

namespace Sys2Proof.Machine

/-! ### memRead: what it leaves alone -/

@[simp] theorem State.memRead_regs (s : State) (a : Word) :
    (s.memRead a).2.regs = s.regs := rfl
@[simp] theorem State.memRead_pc (s : State) (a : Word) :
    (s.memRead a).2.pc = s.pc := rfl
@[simp] theorem State.memRead_sp (s : State) (a : Word) :
    (s.memRead a).2.sp = s.sp := rfl
@[simp] theorem State.memRead_flags (s : State) (a : Word) :
    (s.memRead a).2.flags = s.flags := rfl
@[simp] theorem State.memRead_cycles (s : State) (a : Word) :
    (s.memRead a).2.cycles = s.cycles := rfl
@[simp] theorem State.memRead_inte (s : State) (a : Word) :
    (s.memRead a).2.inte = s.inte := rfl
@[simp] theorem State.memRead_halted (s : State) (a : Word) :
    (s.memRead a).2.halted = s.halted := rfl
@[simp] theorem State.memRead_cfg (s : State) (a : Word) :
    (s.memRead a).2.cfg = s.cfg := rfl
@[simp] theorem State.memRead_memMap (s : State) (a : Word) :
    (s.memRead a).2.memMap = s.memMap := rfl
@[simp] theorem State.memRead_mem (s : State) (a : Word) :
    (s.memRead a).2.mem = s.mem := rfl
@[simp] theorem State.memRead_ioMap (s : State) (a : Word) :
    (s.memRead a).2.ioMap = s.ioMap := rfl
@[simp] theorem State.memRead_ioOut (s : State) (a : Word) :
    (s.memRead a).2.ioOut = s.ioOut := rfl
@[simp] theorem State.memRead_reg (s : State) (a : Word) (q : Reg) :
    (s.memRead a).2.reg q = s.reg q := by simp [State.reg]
@[simp] theorem State.memRead_pair (s : State) (a : Word) (p : Pair) :
    (s.memRead a).2.pair p = s.pair p := by simp [State.pair]
@[simp] theorem State.memRead_hl (s : State) (a : Word) :
    (s.memRead a).2.hl = s.hl := by simp [State.hl]
@[simp] theorem State.memRead_cell (s : State) (a : Word) (x : Word) :
    (s.memRead a).2.cell x = s.cell x := by simp [State.cell]

/-! ### store: what it leaves alone -/

@[simp] theorem State.store_regs (s : State) (a : Word) (v : Byte) :
    (s.store a v).regs = s.regs := by unfold State.store; split <;> rfl
@[simp] theorem State.store_pc (s : State) (a : Word) (v : Byte) :
    (s.store a v).pc = s.pc := by unfold State.store; split <;> rfl
@[simp] theorem State.store_sp (s : State) (a : Word) (v : Byte) :
    (s.store a v).sp = s.sp := by unfold State.store; split <;> rfl
@[simp] theorem State.store_flags (s : State) (a : Word) (v : Byte) :
    (s.store a v).flags = s.flags := by unfold State.store; split <;> rfl
@[simp] theorem State.store_cycles (s : State) (a : Word) (v : Byte) :
    (s.store a v).cycles = s.cycles := by unfold State.store; split <;> rfl
@[simp] theorem State.store_inte (s : State) (a : Word) (v : Byte) :
    (s.store a v).inte = s.inte := by unfold State.store; split <;> rfl
@[simp] theorem State.store_halted (s : State) (a : Word) (v : Byte) :
    (s.store a v).halted = s.halted := by unfold State.store; split <;> rfl
@[simp] theorem State.store_cfg (s : State) (a : Word) (v : Byte) :
    (s.store a v).cfg = s.cfg := by unfold State.store; split <;> rfl
@[simp] theorem State.store_memMap (s : State) (a : Word) (v : Byte) :
    (s.store a v).memMap = s.memMap := by unfold State.store; split <;> rfl
@[simp] theorem State.store_ioMap (s : State) (a : Word) (v : Byte) :
    (s.store a v).ioMap = s.ioMap := by unfold State.store; split <;> rfl
@[simp] theorem State.store_ioOut (s : State) (a : Word) (v : Byte) :
    (s.store a v).ioOut = s.ioOut := by unfold State.store; split <;> rfl
@[simp] theorem State.store_busCount (s : State) (a : Word) (v : Byte) :
    (s.store a v).busCount = s.busCount := by unfold State.store; split <;> rfl
@[simp] theorem State.store_out (s : State) (a : Word) (v : Byte) :
    (s.store a v).out = s.out := by unfold State.store; split <;> rfl
@[simp] theorem State.store_reg (s : State) (a : Word) (v : Byte) (q : Reg) :
    (s.store a v).reg q = s.reg q := by simp [State.reg]
@[simp] theorem State.store_pair (s : State) (a : Word) (v : Byte) (p : Pair) :
    (s.store a v).pair p = s.pair p := by simp [State.pair]
@[simp] theorem State.store_hl (s : State) (a : Word) (v : Byte) :
    (s.store a v).hl = s.hl := by simp [State.hl]

/-! ### memWrite: what it leaves alone -/

@[simp] theorem State.memWrite_regs (s : State) (a : Word) (v : Byte) :
    (s.memWrite a v).regs = s.regs := by simp [State.memWrite]
@[simp] theorem State.memWrite_pc (s : State) (a : Word) (v : Byte) :
    (s.memWrite a v).pc = s.pc := by simp [State.memWrite]
@[simp] theorem State.memWrite_sp (s : State) (a : Word) (v : Byte) :
    (s.memWrite a v).sp = s.sp := by simp [State.memWrite]
@[simp] theorem State.memWrite_flags (s : State) (a : Word) (v : Byte) :
    (s.memWrite a v).flags = s.flags := by simp [State.memWrite]
@[simp] theorem State.memWrite_cycles (s : State) (a : Word) (v : Byte) :
    (s.memWrite a v).cycles = s.cycles := by simp [State.memWrite]
@[simp] theorem State.memWrite_inte (s : State) (a : Word) (v : Byte) :
    (s.memWrite a v).inte = s.inte := by simp [State.memWrite]
@[simp] theorem State.memWrite_halted (s : State) (a : Word) (v : Byte) :
    (s.memWrite a v).halted = s.halted := by simp [State.memWrite]
@[simp] theorem State.memWrite_cfg (s : State) (a : Word) (v : Byte) :
    (s.memWrite a v).cfg = s.cfg := by simp [State.memWrite]
@[simp] theorem State.memWrite_memMap (s : State) (a : Word) (v : Byte) :
    (s.memWrite a v).memMap = s.memMap := by simp [State.memWrite]
@[simp] theorem State.memWrite_ioMap (s : State) (a : Word) (v : Byte) :
    (s.memWrite a v).ioMap = s.ioMap := by simp [State.memWrite]
@[simp] theorem State.memWrite_ioOut (s : State) (a : Word) (v : Byte) :
    (s.memWrite a v).ioOut = s.ioOut := by simp [State.memWrite]
@[simp] theorem State.memWrite_reg (s : State) (a : Word) (v : Byte) (q : Reg) :
    (s.memWrite a v).reg q = s.reg q := by simp [State.reg]
@[simp] theorem State.memWrite_pair (s : State) (a : Word) (v : Byte) (p : Pair) :
    (s.memWrite a v).pair p = s.pair p := by simp [State.pair]
@[simp] theorem State.memWrite_hl (s : State) (a : Word) (v : Byte) :
    (s.memWrite a v).hl = s.hl := by simp [State.hl]

/-! ### memRead16: what it leaves alone -/

@[simp] theorem State.memRead16_regs (s : State) (a : Word) :
    (s.memRead16 a).2.regs = s.regs := rfl
@[simp] theorem State.memRead16_pc (s : State) (a : Word) :
    (s.memRead16 a).2.pc = s.pc := rfl
@[simp] theorem State.memRead16_sp (s : State) (a : Word) :
    (s.memRead16 a).2.sp = s.sp := rfl
@[simp] theorem State.memRead16_flags (s : State) (a : Word) :
    (s.memRead16 a).2.flags = s.flags := rfl
@[simp] theorem State.memRead16_cycles (s : State) (a : Word) :
    (s.memRead16 a).2.cycles = s.cycles := rfl
@[simp] theorem State.memRead16_inte (s : State) (a : Word) :
    (s.memRead16 a).2.inte = s.inte := rfl
@[simp] theorem State.memRead16_halted (s : State) (a : Word) :
    (s.memRead16 a).2.halted = s.halted := rfl
@[simp] theorem State.memRead16_cfg (s : State) (a : Word) :
    (s.memRead16 a).2.cfg = s.cfg := rfl
@[simp] theorem State.memRead16_memMap (s : State) (a : Word) :
    (s.memRead16 a).2.memMap = s.memMap := rfl
@[simp] theorem State.memRead16_mem (s : State) (a : Word) :
    (s.memRead16 a).2.mem = s.mem := rfl
@[simp] theorem State.memRead16_ioMap (s : State) (a : Word) :
    (s.memRead16 a).2.ioMap = s.ioMap := rfl
@[simp] theorem State.memRead16_ioOut (s : State) (a : Word) :
    (s.memRead16 a).2.ioOut = s.ioOut := rfl
@[simp] theorem State.memRead16_reg (s : State) (a : Word) (q : Reg) :
    (s.memRead16 a).2.reg q = s.reg q := by simp [State.reg]
@[simp] theorem State.memRead16_pair (s : State) (a : Word) (p : Pair) :
    (s.memRead16 a).2.pair p = s.pair p := by simp [State.pair]
@[simp] theorem State.memRead16_hl (s : State) (a : Word) :
    (s.memRead16 a).2.hl = s.hl := by simp [State.hl]
@[simp] theorem State.memRead16_cell (s : State) (a : Word) (x : Word) :
    (s.memRead16 a).2.cell x = s.cell x := by simp [State.cell]

/-! ### memWrite16: what it leaves alone -/

@[simp] theorem State.memWrite16_regs (s : State) (a w : Word) :
    (s.memWrite16 a w).regs = s.regs := by simp [State.memWrite16]
@[simp] theorem State.memWrite16_pc (s : State) (a w : Word) :
    (s.memWrite16 a w).pc = s.pc := by simp [State.memWrite16]
@[simp] theorem State.memWrite16_sp (s : State) (a w : Word) :
    (s.memWrite16 a w).sp = s.sp := by simp [State.memWrite16]
@[simp] theorem State.memWrite16_flags (s : State) (a w : Word) :
    (s.memWrite16 a w).flags = s.flags := by simp [State.memWrite16]
@[simp] theorem State.memWrite16_cycles (s : State) (a w : Word) :
    (s.memWrite16 a w).cycles = s.cycles := by simp [State.memWrite16]
@[simp] theorem State.memWrite16_inte (s : State) (a w : Word) :
    (s.memWrite16 a w).inte = s.inte := by simp [State.memWrite16]
@[simp] theorem State.memWrite16_halted (s : State) (a w : Word) :
    (s.memWrite16 a w).halted = s.halted := by simp [State.memWrite16]
@[simp] theorem State.memWrite16_cfg (s : State) (a w : Word) :
    (s.memWrite16 a w).cfg = s.cfg := by simp [State.memWrite16]
@[simp] theorem State.memWrite16_memMap (s : State) (a w : Word) :
    (s.memWrite16 a w).memMap = s.memMap := by simp [State.memWrite16]
@[simp] theorem State.memWrite16_ioMap (s : State) (a w : Word) :
    (s.memWrite16 a w).ioMap = s.ioMap := by simp [State.memWrite16]
@[simp] theorem State.memWrite16_ioOut (s : State) (a w : Word) :
    (s.memWrite16 a w).ioOut = s.ioOut := by simp [State.memWrite16]
@[simp] theorem State.memWrite16_reg (s : State) (a w : Word) (q : Reg) :
    (s.memWrite16 a w).reg q = s.reg q := by simp [State.reg]
@[simp] theorem State.memWrite16_pair (s : State) (a w : Word) (p : Pair) :
    (s.memWrite16 a w).pair p = s.pair p := by simp [State.pair]
@[simp] theorem State.memWrite16_hl (s : State) (a w : Word) :
    (s.memWrite16 a w).hl = s.hl := by simp [State.hl]

/-! ### portStore: what it leaves alone -/

@[simp] theorem State.portStore_regs (s : State) (port v : Byte) :
    (s.portStore port v).regs = s.regs := by unfold State.portStore; split <;> rfl
@[simp] theorem State.portStore_pc (s : State) (port v : Byte) :
    (s.portStore port v).pc = s.pc := by unfold State.portStore; split <;> rfl
@[simp] theorem State.portStore_sp (s : State) (port v : Byte) :
    (s.portStore port v).sp = s.sp := by unfold State.portStore; split <;> rfl
@[simp] theorem State.portStore_flags (s : State) (port v : Byte) :
    (s.portStore port v).flags = s.flags := by unfold State.portStore; split <;> rfl
@[simp] theorem State.portStore_cycles (s : State) (port v : Byte) :
    (s.portStore port v).cycles = s.cycles := by unfold State.portStore; split <;> rfl
@[simp] theorem State.portStore_inte (s : State) (port v : Byte) :
    (s.portStore port v).inte = s.inte := by unfold State.portStore; split <;> rfl
@[simp] theorem State.portStore_halted (s : State) (port v : Byte) :
    (s.portStore port v).halted = s.halted := by unfold State.portStore; split <;> rfl
@[simp] theorem State.portStore_cfg (s : State) (port v : Byte) :
    (s.portStore port v).cfg = s.cfg := by unfold State.portStore; split <;> rfl
@[simp] theorem State.portStore_memMap (s : State) (port v : Byte) :
    (s.portStore port v).memMap = s.memMap := by unfold State.portStore; split <;> rfl
@[simp] theorem State.portStore_mem (s : State) (port v : Byte) :
    (s.portStore port v).mem = s.mem := by unfold State.portStore; split <;> rfl
@[simp] theorem State.portStore_ioMap (s : State) (port v : Byte) :
    (s.portStore port v).ioMap = s.ioMap := by unfold State.portStore; split <;> rfl
@[simp] theorem State.portStore_busCount (s : State) (port v : Byte) :
    (s.portStore port v).busCount = s.busCount := by unfold State.portStore; split <;> rfl
@[simp] theorem State.portStore_out (s : State) (port v : Byte) :
    (s.portStore port v).out = s.out := by unfold State.portStore; split <;> rfl
@[simp] theorem State.portStore_reg (s : State) (port v : Byte) (q : Reg) :
    (s.portStore port v).reg q = s.reg q := by simp [State.reg]
@[simp] theorem State.portStore_pair (s : State) (port v : Byte) (p : Pair) :
    (s.portStore port v).pair p = s.pair p := by simp [State.pair]
@[simp] theorem State.portStore_hl (s : State) (port v : Byte) :
    (s.portStore port v).hl = s.hl := by simp [State.hl]
@[simp] theorem State.portStore_cell (s : State) (port v : Byte) (x : Word) :
    (s.portStore port v).cell x = s.cell x := by simp [State.cell]
@[simp] theorem State.portStore_answer (s : State) (port v : Byte) (k : Nat) (x : Word) :
    (s.portStore port v).answer k x = s.answer k x := by simp [State.answer]

/-! ### ioRead: what it leaves alone -/

@[simp] theorem State.ioRead_regs (s : State) (port : Byte) :
    (s.ioRead port).2.regs = s.regs := rfl
@[simp] theorem State.ioRead_pc (s : State) (port : Byte) :
    (s.ioRead port).2.pc = s.pc := rfl
@[simp] theorem State.ioRead_sp (s : State) (port : Byte) :
    (s.ioRead port).2.sp = s.sp := rfl
@[simp] theorem State.ioRead_flags (s : State) (port : Byte) :
    (s.ioRead port).2.flags = s.flags := rfl
@[simp] theorem State.ioRead_cycles (s : State) (port : Byte) :
    (s.ioRead port).2.cycles = s.cycles := rfl
@[simp] theorem State.ioRead_inte (s : State) (port : Byte) :
    (s.ioRead port).2.inte = s.inte := rfl
@[simp] theorem State.ioRead_halted (s : State) (port : Byte) :
    (s.ioRead port).2.halted = s.halted := rfl
@[simp] theorem State.ioRead_cfg (s : State) (port : Byte) :
    (s.ioRead port).2.cfg = s.cfg := rfl
@[simp] theorem State.ioRead_memMap (s : State) (port : Byte) :
    (s.ioRead port).2.memMap = s.memMap := rfl
@[simp] theorem State.ioRead_mem (s : State) (port : Byte) :
    (s.ioRead port).2.mem = s.mem := rfl
@[simp] theorem State.ioRead_ioMap (s : State) (port : Byte) :
    (s.ioRead port).2.ioMap = s.ioMap := rfl
@[simp] theorem State.ioRead_ioOut (s : State) (port : Byte) :
    (s.ioRead port).2.ioOut = s.ioOut := rfl
@[simp] theorem State.ioRead_reg (s : State) (port : Byte) (q : Reg) :
    (s.ioRead port).2.reg q = s.reg q := by simp [State.reg]
@[simp] theorem State.ioRead_pair (s : State) (port : Byte) (p : Pair) :
    (s.ioRead port).2.pair p = s.pair p := by simp [State.pair]
@[simp] theorem State.ioRead_hl (s : State) (port : Byte) :
    (s.ioRead port).2.hl = s.hl := by simp [State.hl]
@[simp] theorem State.ioRead_cell (s : State) (port : Byte) (x : Word) :
    (s.ioRead port).2.cell x = s.cell x := by simp [State.cell]

/-! ### ioWrite: what it leaves alone -/

@[simp] theorem State.ioWrite_regs (s : State) (port v : Byte) :
    (s.ioWrite port v).regs = s.regs := by simp [State.ioWrite]
@[simp] theorem State.ioWrite_pc (s : State) (port v : Byte) :
    (s.ioWrite port v).pc = s.pc := by simp [State.ioWrite]
@[simp] theorem State.ioWrite_sp (s : State) (port v : Byte) :
    (s.ioWrite port v).sp = s.sp := by simp [State.ioWrite]
@[simp] theorem State.ioWrite_flags (s : State) (port v : Byte) :
    (s.ioWrite port v).flags = s.flags := by simp [State.ioWrite]
@[simp] theorem State.ioWrite_cycles (s : State) (port v : Byte) :
    (s.ioWrite port v).cycles = s.cycles := by simp [State.ioWrite]
@[simp] theorem State.ioWrite_inte (s : State) (port v : Byte) :
    (s.ioWrite port v).inte = s.inte := by simp [State.ioWrite]
@[simp] theorem State.ioWrite_halted (s : State) (port v : Byte) :
    (s.ioWrite port v).halted = s.halted := by simp [State.ioWrite]
@[simp] theorem State.ioWrite_cfg (s : State) (port v : Byte) :
    (s.ioWrite port v).cfg = s.cfg := by simp [State.ioWrite]
@[simp] theorem State.ioWrite_memMap (s : State) (port v : Byte) :
    (s.ioWrite port v).memMap = s.memMap := by simp [State.ioWrite]
@[simp] theorem State.ioWrite_mem (s : State) (port v : Byte) :
    (s.ioWrite port v).mem = s.mem := by simp [State.ioWrite]
@[simp] theorem State.ioWrite_ioMap (s : State) (port v : Byte) :
    (s.ioWrite port v).ioMap = s.ioMap := by simp [State.ioWrite]
@[simp] theorem State.ioWrite_reg (s : State) (port v : Byte) (q : Reg) :
    (s.ioWrite port v).reg q = s.reg q := by simp [State.reg]
@[simp] theorem State.ioWrite_pair (s : State) (port v : Byte) (p : Pair) :
    (s.ioWrite port v).pair p = s.pair p := by simp [State.pair]
@[simp] theorem State.ioWrite_hl (s : State) (port v : Byte) :
    (s.ioWrite port v).hl = s.hl := by simp [State.hl]
@[simp] theorem State.ioWrite_cell (s : State) (port v : Byte) (x : Word) :
    (s.ioWrite port v).cell x = s.cell x := by simp [State.cell]

/-! ### push16: what it leaves alone -/

@[simp] theorem State.push16_regs (s : State) (w : Word) :
    (s.push16 w).regs = s.regs := by unfold State.push16; simp only; split <;> simp
@[simp] theorem State.push16_pc (s : State) (w : Word) :
    (s.push16 w).pc = s.pc := by unfold State.push16; simp only; split <;> simp
@[simp] theorem State.push16_flags (s : State) (w : Word) :
    (s.push16 w).flags = s.flags := by unfold State.push16; simp only; split <;> simp
@[simp] theorem State.push16_cycles (s : State) (w : Word) :
    (s.push16 w).cycles = s.cycles := by unfold State.push16; simp only; split <;> simp
@[simp] theorem State.push16_inte (s : State) (w : Word) :
    (s.push16 w).inte = s.inte := by unfold State.push16; simp only; split <;> simp
@[simp] theorem State.push16_halted (s : State) (w : Word) :
    (s.push16 w).halted = s.halted := by unfold State.push16; simp only; split <;> simp
@[simp] theorem State.push16_cfg (s : State) (w : Word) :
    (s.push16 w).cfg = s.cfg := by unfold State.push16; simp only; split <;> simp
@[simp] theorem State.push16_memMap (s : State) (w : Word) :
    (s.push16 w).memMap = s.memMap := by unfold State.push16; simp only; split <;> simp
@[simp] theorem State.push16_ioMap (s : State) (w : Word) :
    (s.push16 w).ioMap = s.ioMap := by unfold State.push16; simp only; split <;> simp
@[simp] theorem State.push16_ioOut (s : State) (w : Word) :
    (s.push16 w).ioOut = s.ioOut := by unfold State.push16; simp only; split <;> simp
@[simp] theorem State.push16_reg (s : State) (w : Word) (q : Reg) :
    (s.push16 w).reg q = s.reg q := by simp [State.reg]
@[simp] theorem State.push16_pair (s : State) (w : Word) (p : Pair) :
    (s.push16 w).pair p = s.pair p := by simp [State.pair]
@[simp] theorem State.push16_hl (s : State) (w : Word) :
    (s.push16 w).hl = s.hl := by simp [State.hl]

/-! ### readTop: what it leaves alone -/

@[simp] theorem State.readTop_regs (s : State) :
    s.readTop.2.regs = s.regs := rfl
@[simp] theorem State.readTop_pc (s : State) :
    s.readTop.2.pc = s.pc := rfl
@[simp] theorem State.readTop_sp (s : State) :
    s.readTop.2.sp = s.sp := rfl
@[simp] theorem State.readTop_flags (s : State) :
    s.readTop.2.flags = s.flags := rfl
@[simp] theorem State.readTop_cycles (s : State) :
    s.readTop.2.cycles = s.cycles := rfl
@[simp] theorem State.readTop_inte (s : State) :
    s.readTop.2.inte = s.inte := rfl
@[simp] theorem State.readTop_halted (s : State) :
    s.readTop.2.halted = s.halted := rfl
@[simp] theorem State.readTop_cfg (s : State) :
    s.readTop.2.cfg = s.cfg := rfl
@[simp] theorem State.readTop_memMap (s : State) :
    s.readTop.2.memMap = s.memMap := rfl
@[simp] theorem State.readTop_mem (s : State) :
    s.readTop.2.mem = s.mem := rfl
@[simp] theorem State.readTop_ioMap (s : State) :
    s.readTop.2.ioMap = s.ioMap := rfl
@[simp] theorem State.readTop_ioOut (s : State) :
    s.readTop.2.ioOut = s.ioOut := rfl
@[simp] theorem State.readTop_reg (s : State) (q : Reg) :
    s.readTop.2.reg q = s.reg q := by simp [State.reg]
@[simp] theorem State.readTop_pair (s : State) (p : Pair) :
    s.readTop.2.pair p = s.pair p := by simp [State.pair]
@[simp] theorem State.readTop_hl (s : State) :
    s.readTop.2.hl = s.hl := by simp [State.hl]
@[simp] theorem State.readTop_cell (s : State) (x : Word) :
    s.readTop.2.cell x = s.cell x := by simp [State.cell]

/-! ### writeTop: what it leaves alone -/

@[simp] theorem State.writeTop_regs (s : State) (w : Word) :
    (s.writeTop w).regs = s.regs := by unfold State.writeTop; split <;> simp
@[simp] theorem State.writeTop_pc (s : State) (w : Word) :
    (s.writeTop w).pc = s.pc := by unfold State.writeTop; split <;> simp
@[simp] theorem State.writeTop_sp (s : State) (w : Word) :
    (s.writeTop w).sp = s.sp := by unfold State.writeTop; split <;> simp
@[simp] theorem State.writeTop_flags (s : State) (w : Word) :
    (s.writeTop w).flags = s.flags := by unfold State.writeTop; split <;> simp
@[simp] theorem State.writeTop_cycles (s : State) (w : Word) :
    (s.writeTop w).cycles = s.cycles := by unfold State.writeTop; split <;> simp
@[simp] theorem State.writeTop_inte (s : State) (w : Word) :
    (s.writeTop w).inte = s.inte := by unfold State.writeTop; split <;> simp
@[simp] theorem State.writeTop_halted (s : State) (w : Word) :
    (s.writeTop w).halted = s.halted := by unfold State.writeTop; split <;> simp
@[simp] theorem State.writeTop_cfg (s : State) (w : Word) :
    (s.writeTop w).cfg = s.cfg := by unfold State.writeTop; split <;> simp
@[simp] theorem State.writeTop_memMap (s : State) (w : Word) :
    (s.writeTop w).memMap = s.memMap := by unfold State.writeTop; split <;> simp
@[simp] theorem State.writeTop_ioMap (s : State) (w : Word) :
    (s.writeTop w).ioMap = s.ioMap := by unfold State.writeTop; split <;> simp
@[simp] theorem State.writeTop_ioOut (s : State) (w : Word) :
    (s.writeTop w).ioOut = s.ioOut := by unfold State.writeTop; split <;> simp
@[simp] theorem State.writeTop_reg (s : State) (w : Word) (q : Reg) :
    (s.writeTop w).reg q = s.reg q := by simp [State.reg]
@[simp] theorem State.writeTop_pair (s : State) (w : Word) (p : Pair) :
    (s.writeTop w).pair p = s.pair p := by simp [State.pair]
@[simp] theorem State.writeTop_hl (s : State) (w : Word) :
    (s.writeTop w).hl = s.hl := by simp [State.hl]

/-! ### pop16: what it leaves alone -/

@[simp] theorem State.pop16_regs (s : State) :
    s.pop16.2.regs = s.regs := rfl
@[simp] theorem State.pop16_pc (s : State) :
    s.pop16.2.pc = s.pc := rfl
@[simp] theorem State.pop16_flags (s : State) :
    s.pop16.2.flags = s.flags := rfl
@[simp] theorem State.pop16_cycles (s : State) :
    s.pop16.2.cycles = s.cycles := rfl
@[simp] theorem State.pop16_inte (s : State) :
    s.pop16.2.inte = s.inte := rfl
@[simp] theorem State.pop16_halted (s : State) :
    s.pop16.2.halted = s.halted := rfl
@[simp] theorem State.pop16_cfg (s : State) :
    s.pop16.2.cfg = s.cfg := rfl
@[simp] theorem State.pop16_memMap (s : State) :
    s.pop16.2.memMap = s.memMap := rfl
@[simp] theorem State.pop16_mem (s : State) :
    s.pop16.2.mem = s.mem := rfl
@[simp] theorem State.pop16_ioMap (s : State) :
    s.pop16.2.ioMap = s.ioMap := rfl
@[simp] theorem State.pop16_ioOut (s : State) :
    s.pop16.2.ioOut = s.ioOut := rfl
@[simp] theorem State.pop16_reg (s : State) (q : Reg) :
    s.pop16.2.reg q = s.reg q := by simp [State.reg]
@[simp] theorem State.pop16_pair (s : State) (p : Pair) :
    s.pop16.2.pair p = s.pair p := by simp [State.pair]
@[simp] theorem State.pop16_hl (s : State) :
    s.pop16.2.hl = s.hl := by simp [State.hl]
@[simp] theorem State.pop16_cell (s : State) (x : Word) :
    s.pop16.2.cell x = s.cell x := by simp [State.cell]

/-! ### setPair: what it leaves alone -/

@[simp] theorem State.setPair_pc (s : State) (p : Pair) (w : Word) :
    (s.setPair p w).pc = s.pc := rfl
@[simp] theorem State.setPair_sp (s : State) (p : Pair) (w : Word) :
    (s.setPair p w).sp = s.sp := rfl
@[simp] theorem State.setPair_flags (s : State) (p : Pair) (w : Word) :
    (s.setPair p w).flags = s.flags := rfl
@[simp] theorem State.setPair_cycles (s : State) (p : Pair) (w : Word) :
    (s.setPair p w).cycles = s.cycles := rfl
@[simp] theorem State.setPair_inte (s : State) (p : Pair) (w : Word) :
    (s.setPair p w).inte = s.inte := rfl
@[simp] theorem State.setPair_halted (s : State) (p : Pair) (w : Word) :
    (s.setPair p w).halted = s.halted := rfl
@[simp] theorem State.setPair_cfg (s : State) (p : Pair) (w : Word) :
    (s.setPair p w).cfg = s.cfg := rfl
@[simp] theorem State.setPair_memMap (s : State) (p : Pair) (w : Word) :
    (s.setPair p w).memMap = s.memMap := rfl
@[simp] theorem State.setPair_mem (s : State) (p : Pair) (w : Word) :
    (s.setPair p w).mem = s.mem := rfl
@[simp] theorem State.setPair_ioMap (s : State) (p : Pair) (w : Word) :
    (s.setPair p w).ioMap = s.ioMap := rfl
@[simp] theorem State.setPair_ioOut (s : State) (p : Pair) (w : Word) :
    (s.setPair p w).ioOut = s.ioOut := rfl
@[simp] theorem State.setPair_busCount (s : State) (p : Pair) (w : Word) :
    (s.setPair p w).busCount = s.busCount := rfl
@[simp] theorem State.setPair_out (s : State) (p : Pair) (w : Word) :
    (s.setPair p w).out = s.out := rfl
@[simp] theorem State.setPair_cell (s : State) (p : Pair) (w : Word) (x : Word) :
    (s.setPair p w).cell x = s.cell x := by simp [State.cell]
@[simp] theorem State.setPair_answer (s : State) (p : Pair) (w : Word) (k : Nat) (x : Word) :
    (s.setPair p w).answer k x = s.answer k x := by simp [State.answer]

/-! ### setRp16: what it leaves alone -/

@[simp] theorem State.setRp16_pc (s : State) (p : Rp) (w : Word) :
    (s.setRp16 p w).pc = s.pc := by cases p <;> rfl
@[simp] theorem State.setRp16_flags (s : State) (p : Rp) (w : Word) :
    (s.setRp16 p w).flags = s.flags := by cases p <;> rfl
@[simp] theorem State.setRp16_cycles (s : State) (p : Rp) (w : Word) :
    (s.setRp16 p w).cycles = s.cycles := by cases p <;> rfl
@[simp] theorem State.setRp16_inte (s : State) (p : Rp) (w : Word) :
    (s.setRp16 p w).inte = s.inte := by cases p <;> rfl
@[simp] theorem State.setRp16_halted (s : State) (p : Rp) (w : Word) :
    (s.setRp16 p w).halted = s.halted := by cases p <;> rfl
@[simp] theorem State.setRp16_cfg (s : State) (p : Rp) (w : Word) :
    (s.setRp16 p w).cfg = s.cfg := by cases p <;> rfl
@[simp] theorem State.setRp16_memMap (s : State) (p : Rp) (w : Word) :
    (s.setRp16 p w).memMap = s.memMap := by cases p <;> rfl
@[simp] theorem State.setRp16_mem (s : State) (p : Rp) (w : Word) :
    (s.setRp16 p w).mem = s.mem := by cases p <;> rfl
@[simp] theorem State.setRp16_ioMap (s : State) (p : Rp) (w : Word) :
    (s.setRp16 p w).ioMap = s.ioMap := by cases p <;> rfl
@[simp] theorem State.setRp16_ioOut (s : State) (p : Rp) (w : Word) :
    (s.setRp16 p w).ioOut = s.ioOut := by cases p <;> rfl
@[simp] theorem State.setRp16_busCount (s : State) (p : Rp) (w : Word) :
    (s.setRp16 p w).busCount = s.busCount := by cases p <;> rfl
@[simp] theorem State.setRp16_out (s : State) (p : Rp) (w : Word) :
    (s.setRp16 p w).out = s.out := by cases p <;> rfl
@[simp] theorem State.setRp16_cell (s : State) (p : Rp) (w : Word) (x : Word) :
    (s.setRp16 p w).cell x = s.cell x := by simp [State.cell]
@[simp] theorem State.setRp16_answer (s : State) (p : Rp) (w : Word) (k : Nat) (x : Word) :
    (s.setRp16 p w).answer k x = s.answer k x := by simp [State.answer]

/-! ### setPsw: what it leaves alone -/

@[simp] theorem State.setPsw_pc (s : State) (w : Word) :
    (s.setPsw w).pc = s.pc := rfl
@[simp] theorem State.setPsw_sp (s : State) (w : Word) :
    (s.setPsw w).sp = s.sp := rfl
@[simp] theorem State.setPsw_cycles (s : State) (w : Word) :
    (s.setPsw w).cycles = s.cycles := rfl
@[simp] theorem State.setPsw_inte (s : State) (w : Word) :
    (s.setPsw w).inte = s.inte := rfl
@[simp] theorem State.setPsw_halted (s : State) (w : Word) :
    (s.setPsw w).halted = s.halted := rfl
@[simp] theorem State.setPsw_cfg (s : State) (w : Word) :
    (s.setPsw w).cfg = s.cfg := rfl
@[simp] theorem State.setPsw_memMap (s : State) (w : Word) :
    (s.setPsw w).memMap = s.memMap := rfl
@[simp] theorem State.setPsw_mem (s : State) (w : Word) :
    (s.setPsw w).mem = s.mem := rfl
@[simp] theorem State.setPsw_ioMap (s : State) (w : Word) :
    (s.setPsw w).ioMap = s.ioMap := rfl
@[simp] theorem State.setPsw_ioOut (s : State) (w : Word) :
    (s.setPsw w).ioOut = s.ioOut := rfl
@[simp] theorem State.setPsw_busCount (s : State) (w : Word) :
    (s.setPsw w).busCount = s.busCount := rfl
@[simp] theorem State.setPsw_out (s : State) (w : Word) :
    (s.setPsw w).out = s.out := rfl
@[simp] theorem State.setPsw_cell (s : State) (w : Word) (x : Word) :
    (s.setPsw w).cell x = s.cell x := by simp [State.cell]
@[simp] theorem State.setPsw_answer (s : State) (w : Word) (k : Nat) (x : Word) :
    (s.setPsw w).answer k x = s.answer k x := by simp [State.answer]

/-! ### advance: what it leaves alone -/

@[simp] theorem State.advance_regs (s : State) (i : Instr) :
    (s.advance i).regs = s.regs := rfl
@[simp] theorem State.advance_sp (s : State) (i : Instr) :
    (s.advance i).sp = s.sp := rfl
@[simp] theorem State.advance_flags (s : State) (i : Instr) :
    (s.advance i).flags = s.flags := rfl
@[simp] theorem State.advance_inte (s : State) (i : Instr) :
    (s.advance i).inte = s.inte := rfl
@[simp] theorem State.advance_halted (s : State) (i : Instr) :
    (s.advance i).halted = s.halted := rfl
@[simp] theorem State.advance_cfg (s : State) (i : Instr) :
    (s.advance i).cfg = s.cfg := rfl
@[simp] theorem State.advance_memMap (s : State) (i : Instr) :
    (s.advance i).memMap = s.memMap := rfl
@[simp] theorem State.advance_mem (s : State) (i : Instr) :
    (s.advance i).mem = s.mem := rfl
@[simp] theorem State.advance_ioMap (s : State) (i : Instr) :
    (s.advance i).ioMap = s.ioMap := rfl
@[simp] theorem State.advance_ioOut (s : State) (i : Instr) :
    (s.advance i).ioOut = s.ioOut := rfl
@[simp] theorem State.advance_busCount (s : State) (i : Instr) :
    (s.advance i).busCount = s.busCount := rfl
@[simp] theorem State.advance_out (s : State) (i : Instr) :
    (s.advance i).out = s.out := rfl
@[simp] theorem State.advance_reg (s : State) (i : Instr) (q : Reg) :
    (s.advance i).reg q = s.reg q := by simp [State.reg]
@[simp] theorem State.advance_pair (s : State) (i : Instr) (p : Pair) :
    (s.advance i).pair p = s.pair p := by simp [State.pair]
@[simp] theorem State.advance_hl (s : State) (i : Instr) :
    (s.advance i).hl = s.hl := by simp [State.hl]
@[simp] theorem State.advance_cell (s : State) (i : Instr) (x : Word) :
    (s.advance i).cell x = s.cell x := by simp [State.cell]
@[simp] theorem State.advance_answer (s : State) (i : Instr) (k : Nat) (x : Word) :
    (s.advance i).answer k x = s.answer k x := by simp [State.answer]

/-! ### jump: what it leaves alone -/

@[simp] theorem State.jump_regs (s : State) (i : Instr) (w : Word) :
    (s.jump i w).regs = s.regs := rfl
@[simp] theorem State.jump_sp (s : State) (i : Instr) (w : Word) :
    (s.jump i w).sp = s.sp := rfl
@[simp] theorem State.jump_flags (s : State) (i : Instr) (w : Word) :
    (s.jump i w).flags = s.flags := rfl
@[simp] theorem State.jump_inte (s : State) (i : Instr) (w : Word) :
    (s.jump i w).inte = s.inte := rfl
@[simp] theorem State.jump_halted (s : State) (i : Instr) (w : Word) :
    (s.jump i w).halted = s.halted := rfl
@[simp] theorem State.jump_cfg (s : State) (i : Instr) (w : Word) :
    (s.jump i w).cfg = s.cfg := rfl
@[simp] theorem State.jump_memMap (s : State) (i : Instr) (w : Word) :
    (s.jump i w).memMap = s.memMap := rfl
@[simp] theorem State.jump_mem (s : State) (i : Instr) (w : Word) :
    (s.jump i w).mem = s.mem := rfl
@[simp] theorem State.jump_ioMap (s : State) (i : Instr) (w : Word) :
    (s.jump i w).ioMap = s.ioMap := rfl
@[simp] theorem State.jump_ioOut (s : State) (i : Instr) (w : Word) :
    (s.jump i w).ioOut = s.ioOut := rfl
@[simp] theorem State.jump_busCount (s : State) (i : Instr) (w : Word) :
    (s.jump i w).busCount = s.busCount := rfl
@[simp] theorem State.jump_out (s : State) (i : Instr) (w : Word) :
    (s.jump i w).out = s.out := rfl
@[simp] theorem State.jump_reg (s : State) (i : Instr) (w : Word) (q : Reg) :
    (s.jump i w).reg q = s.reg q := by simp [State.reg]
@[simp] theorem State.jump_pair (s : State) (i : Instr) (w : Word) (p : Pair) :
    (s.jump i w).pair p = s.pair p := by simp [State.pair]
@[simp] theorem State.jump_hl (s : State) (i : Instr) (w : Word) :
    (s.jump i w).hl = s.hl := by simp [State.hl]
@[simp] theorem State.jump_cell (s : State) (i : Instr) (w : Word) (x : Word) :
    (s.jump i w).cell x = s.cell x := by simp [State.cell]
@[simp] theorem State.jump_answer (s : State) (i : Instr) (w : Word) (k : Nat) (x : Word) :
    (s.jump i w).answer k x = s.answer k x := by simp [State.answer]

/-! ### jumpTaken: what it leaves alone -/

@[simp] theorem State.jumpTaken_regs (s : State) (i : Instr) (w : Word) :
    (s.jumpTaken i w).regs = s.regs := rfl
@[simp] theorem State.jumpTaken_sp (s : State) (i : Instr) (w : Word) :
    (s.jumpTaken i w).sp = s.sp := rfl
@[simp] theorem State.jumpTaken_flags (s : State) (i : Instr) (w : Word) :
    (s.jumpTaken i w).flags = s.flags := rfl
@[simp] theorem State.jumpTaken_inte (s : State) (i : Instr) (w : Word) :
    (s.jumpTaken i w).inte = s.inte := rfl
@[simp] theorem State.jumpTaken_halted (s : State) (i : Instr) (w : Word) :
    (s.jumpTaken i w).halted = s.halted := rfl
@[simp] theorem State.jumpTaken_cfg (s : State) (i : Instr) (w : Word) :
    (s.jumpTaken i w).cfg = s.cfg := rfl
@[simp] theorem State.jumpTaken_memMap (s : State) (i : Instr) (w : Word) :
    (s.jumpTaken i w).memMap = s.memMap := rfl
@[simp] theorem State.jumpTaken_mem (s : State) (i : Instr) (w : Word) :
    (s.jumpTaken i w).mem = s.mem := rfl
@[simp] theorem State.jumpTaken_ioMap (s : State) (i : Instr) (w : Word) :
    (s.jumpTaken i w).ioMap = s.ioMap := rfl
@[simp] theorem State.jumpTaken_ioOut (s : State) (i : Instr) (w : Word) :
    (s.jumpTaken i w).ioOut = s.ioOut := rfl
@[simp] theorem State.jumpTaken_busCount (s : State) (i : Instr) (w : Word) :
    (s.jumpTaken i w).busCount = s.busCount := rfl
@[simp] theorem State.jumpTaken_out (s : State) (i : Instr) (w : Word) :
    (s.jumpTaken i w).out = s.out := rfl
@[simp] theorem State.jumpTaken_reg (s : State) (i : Instr) (w : Word) (q : Reg) :
    (s.jumpTaken i w).reg q = s.reg q := by simp [State.reg]
@[simp] theorem State.jumpTaken_pair (s : State) (i : Instr) (w : Word) (p : Pair) :
    (s.jumpTaken i w).pair p = s.pair p := by simp [State.pair]
@[simp] theorem State.jumpTaken_hl (s : State) (i : Instr) (w : Word) :
    (s.jumpTaken i w).hl = s.hl := by simp [State.hl]
@[simp] theorem State.jumpTaken_cell (s : State) (i : Instr) (w : Word) (x : Word) :
    (s.jumpTaken i w).cell x = s.cell x := by simp [State.cell]
@[simp] theorem State.jumpTaken_answer (s : State) (i : Instr) (w : Word) (k : Nat) (x : Word) :
    (s.jumpTaken i w).answer k x = s.answer k x := by simp [State.answer]

/-! ### Registers and pairs -/

@[simp] theorem State.setPair_reg (s : State) (p : Pair) (w : Word) (q : Reg) :
    (s.setPair p w).reg q =
      if q = Pair.low p then loByte w else if q = Pair.high p then hiByte w else s.reg q := by
  simp [State.setPair]

@[simp] theorem State.setPair_pair (s : State) (p q : Pair) (w : Word) :
    (s.setPair p w).pair q = if q = p then w else s.pair q := by
  cases p <;> cases q <;> simp [State.pair, Pair.low, Pair.high]

@[simp] theorem State.hiByte_pair (s : State) (p : Pair) : hiByte (s.pair p) = s.reg (Pair.high p) := by
  simp [State.pair]

@[simp] theorem State.loByte_pair (s : State) (p : Pair) : loByte (s.pair p) = s.reg (Pair.low p) := by
  simp [State.pair]

@[simp] theorem State.hiByte_hl (s : State) : hiByte s.hl = s.reg .h := s.hiByte_pair .hl

@[simp] theorem State.loByte_hl (s : State) : loByte s.hl = s.reg .l := s.loByte_pair .hl

@[simp] theorem State.hiByte_psw (s : State) : hiByte s.psw = s.reg .a := by simp [State.psw]

@[simp] theorem State.loByte_psw (s : State) : loByte s.psw = s.status := by simp [State.psw]

@[simp] theorem State.setRp16_rp16 (s : State) (p q : Rp) (w : Word) :
    (s.setRp16 p w).rp16 q = if q = p then w else s.rp16 q := by
  cases p <;> cases q <;> simp [State.setRp16, State.rp16]

@[simp] theorem State.setPsw_reg (s : State) (w : Word) (q : Reg) :
    (s.setPsw w).reg q = if q = .a then hiByte w else s.reg q := by
  simp [State.setPsw]

@[simp] theorem State.setPsw_flags (s : State) (w : Word) :
    (s.setPsw w).flags = Flags.ofStatusByte (loByte w) := rfl

/-! ### Reads of the memory bus -/

@[simp] theorem State.memRead_fst (s : State) (a : Word) : (s.memRead a).1 = s.answer 0 a := rfl

@[simp] theorem State.memRead_busCount (s : State) (a : Word) :
    (s.memRead a).2.busCount = s.busCount + 1 := rfl

@[simp] theorem State.memRead_out (s : State) (a : Word) :
    (s.memRead a).2.out = { s.out with bus := s.out.bus ++ [.memRead a (s.answer 0 a)] } := rfl

@[simp] theorem State.memRead_answer (s : State) (a b : Word) (k : Nat) :
    (s.memRead a).2.answer k b = s.answer (k + 1) b := by
  simp [State.memRead]

@[simp] theorem State.memRead16_fst (s : State) (a : Word) :
    (s.memRead16 a).1 = mkWord (s.answer 1 (a + 1#16)) (s.answer 0 a) := by
  simp [State.memRead16]

@[simp] theorem State.memRead16_out (s : State) (a : Word) :
    (s.memRead16 a).2.out = { s.out with
      bus := s.out.bus ++ [.memRead a (s.answer 0 a), .memRead (a + 1#16) (s.answer 1 (a + 1#16))] } := by
  simp [State.memRead16]

@[simp] theorem State.memRead16_busCount (s : State) (a : Word) :
    (s.memRead16 a).2.busCount = s.busCount + 2 := rfl

/-- A read answers 0 where no device is attached (R66). -/
theorem State.answer_absent {s : State} {a : Word} (k : Nat) (h : s.memMap.kindAt a = .absent) :
    s.answer k a = 0#8 := by
  simp [State.answer, h]

/-- A read of RAM answers the byte held. -/
theorem State.answer_ram {s : State} {a : Word} (k : Nat) (h : s.memMap.kindAt a = .ram) :
    s.answer k a = s.cell a := by
  simp [State.answer, h]

/-- A read of ROM answers the byte held. -/
theorem State.answer_rom {s : State} {a : Word} (k : Nat) (h : s.memMap.kindAt a = .rom) :
    s.answer k a = s.cell a := by
  simp [State.answer, h]

/-! ### Writes of the memory bus -/

/-- A store in RAM puts the byte there and leaves every other byte alone. -/
theorem State.store_cell_ram {s : State} {a : Word} (v : Byte) (b : Word) (hm : s.mem.wf = true)
    (h : s.memMap.kindAt a = .ram) : (s.store a v).cell b = if b = a then v else s.cell b := by
  simp only [State.store, h, State.cell, Memory.read_write v hm, BitVec.toNat_inj]

/-- A store anywhere else changes nothing. -/
theorem State.store_not_ram {s : State} {a : Word} (v : Byte) (h : s.memMap.kindAt a ≠ .ram) :
    s.store a v = s := by
  unfold State.store
  split <;> simp_all

/-- A store leaves every other byte alone. -/
theorem State.store_cell_ne (s : State) {a b : Word} (v : Byte) (h : b ≠ a) :
    (s.store a v).cell b = s.cell b := by
  unfold State.store
  split
  · rfl
  · have hn : b.toNat ≠ a.toNat := fun e => h (BitVec.eq_of_toNat_eq e)
    simp [State.cell, Memory.read_write_ne s.mem v hn]
  · rfl
  · rfl

/-- A store keeps the canonical form of memory. -/
theorem State.store_wf {s : State} (a : Word) (v : Byte) (hm : s.mem.wf = true) :
    (s.store a v).mem.wf = true := by
  unfold State.store
  split
  · exact hm
  · exact Memory.wf_write hm a.isLt
  · exact hm
  · exact hm

@[simp] theorem State.memWrite_busCount (s : State) (a : Word) (v : Byte) :
    (s.memWrite a v).busCount = s.busCount + 1 := by simp [State.memWrite]

@[simp] theorem State.memWrite_out (s : State) (a : Word) (v : Byte) :
    (s.memWrite a v).out = { s.out with bus := s.out.bus ++ [.memWrite a v] } := by
  simp [State.memWrite]

@[simp] theorem State.memWrite_mem (s : State) (a : Word) (v : Byte) :
    (s.memWrite a v).mem = (s.store a v).mem := rfl

theorem State.memWrite_cell_ram {s : State} {a : Word} (v : Byte) (b : Word) (hm : s.mem.wf = true)
    (h : s.memMap.kindAt a = .ram) : (s.memWrite a v).cell b = if b = a then v else s.cell b :=
  State.store_cell_ram v b hm h

theorem State.memWrite_cell_not_ram {s : State} {a : Word} (v : Byte) (b : Word)
    (h : s.memMap.kindAt a ≠ .ram) : (s.memWrite a v).cell b = s.cell b := by
  simp [State.memWrite, State.store_not_ram v h]

theorem State.memWrite_cell_ne (s : State) {a b : Word} (v : Byte) (h : b ≠ a) :
    (s.memWrite a v).cell b = s.cell b := by
  simpa [State.memWrite] using State.store_cell_ne s v h

theorem State.memWrite_wf {s : State} (a : Word) (v : Byte) (hm : s.mem.wf = true) :
    (s.memWrite a v).mem.wf = true := by
  simpa using State.store_wf a v hm

theorem State.memWrite16_wf {s : State} (a w : Word) (hm : s.mem.wf = true) :
    (s.memWrite16 a w).mem.wf = true :=
  State.memWrite_wf _ _ (State.memWrite_wf _ _ hm)

@[simp] theorem State.memWrite16_out (s : State) (a w : Word) :
    (s.memWrite16 a w).out = { s.out with
      bus := s.out.bus ++ [.memWrite a (loByte w), .memWrite (a + 1#16) (hiByte w)] } := by
  simp [State.memWrite16]

@[simp] theorem State.memWrite16_busCount (s : State) (a w : Word) :
    (s.memWrite16 a w).busCount = s.busCount + 2 := by
  simp [State.memWrite16]

/-! ### Ports -/

@[simp] theorem State.ioRead_fst (s : State) (port : Byte) :
    (s.ioRead port).1 = s.portAnswer port := rfl

@[simp] theorem State.ioRead_busCount (s : State) (port : Byte) :
    (s.ioRead port).2.busCount = s.busCount + 1 := rfl

@[simp] theorem State.ioRead_out (s : State) (port : Byte) :
    (s.ioRead port).2.out =
      { s.out with bus := s.out.bus ++ [.ioRead port (s.portAnswer port)] } := rfl

/-- An attached device records a write, the null device ignores it (R66). -/
theorem State.portStore_ioOut (s : State) (port v : Byte) :
    (s.portStore port v).ioOut =
      if s.ioMap.kindAt port = .absent then s.ioOut else s.ioOut ++ [(port, v)] := by
  unfold State.portStore
  split <;> simp_all

@[simp] theorem State.ioWrite_ioOut (s : State) (port v : Byte) :
    (s.ioWrite port v).ioOut =
      if s.ioMap.kindAt port = .absent then s.ioOut else s.ioOut ++ [(port, v)] := by
  simp [State.ioWrite, State.portStore_ioOut]

@[simp] theorem State.ioWrite_busCount (s : State) (port v : Byte) :
    (s.ioWrite port v).busCount = s.busCount + 1 := by
  simp [State.ioWrite]

@[simp] theorem State.ioWrite_out (s : State) (port v : Byte) :
    (s.ioWrite port v).out = { s.out with bus := s.out.bus ++ [.ioWrite port v] } := by
  simp [State.ioWrite]

/-! ### The stack -/

@[simp] theorem State.push16_sp (s : State) (w : Word) : (s.push16 w).sp = s.sp - 2#16 := by
  unfold State.push16
  simp only
  split <;> simp

@[simp] theorem State.push16_busCount (s : State) (w : Word) :
    (s.push16 w).busCount = s.busCount + 2 := by
  unfold State.push16
  simp only
  split <;> simp

/-- The high byte is written first, at `sp` or at `sp + 1` (R70). -/
@[simp] theorem State.push16_out (s : State) (w : Word) :
    (s.push16 w).out = { s.out with bus := s.out.bus ++
      (if s.cfg.stackHiAtSp then
        [.memWrite (s.sp - 2#16) (hiByte w), .memWrite (s.sp - 2#16 + 1#16) (loByte w)]
      else
        [.memWrite (s.sp - 2#16 + 1#16) (hiByte w), .memWrite (s.sp - 2#16) (loByte w)]) } := by
  by_cases h : s.cfg.stackHiAtSp <;> simp [State.push16, h]

theorem State.push16_wf {s : State} (w : Word) (hm : s.mem.wf = true) :
    (s.push16 w).mem.wf = true := by
  unfold State.push16
  simp only
  split <;> exact State.memWrite_wf _ _ (State.memWrite_wf _ _ hm)

/-- A push leaves every byte but its two alone. -/
theorem State.push16_cell_ne (s : State) (w : Word) {b : Word} (h0 : b ≠ s.sp - 2#16)
    (h1 : b ≠ s.sp - 2#16 + 1#16) : (s.push16 w).cell b = s.cell b := by
  unfold State.push16
  simp only
  split
  · rw [State.memWrite_cell_ne _ _ (by simpa using h1), State.memWrite_cell_ne _ _ (by simpa using h0)]
    rfl
  · rw [State.memWrite_cell_ne _ _ (by simpa using h0), State.memWrite_cell_ne _ _ (by simpa using h1)]
    rfl

@[simp] theorem State.readTop_fst (s : State) :
    s.readTop.1 = if s.cfg.stackHiAtSp then mkWord (s.answer 0 s.sp) (s.answer 1 (s.sp + 1#16))
      else mkWord (s.answer 1 (s.sp + 1#16)) (s.answer 0 s.sp) := by
  simp [State.readTop]

@[simp] theorem State.readTop_out (s : State) :
    s.readTop.2.out = { s.out with bus := s.out.bus ++
      [.memRead s.sp (s.answer 0 s.sp), .memRead (s.sp + 1#16) (s.answer 1 (s.sp + 1#16))] } := by
  simp [State.readTop]

@[simp] theorem State.readTop_busCount (s : State) : s.readTop.2.busCount = s.busCount + 2 := rfl

@[simp] theorem State.pop16_fst (s : State) : s.pop16.1 = s.readTop.1 := rfl

@[simp] theorem State.pop16_sp (s : State) : s.pop16.2.sp = s.sp + 2#16 := rfl

@[simp] theorem State.pop16_out (s : State) : s.pop16.2.out = s.readTop.2.out := rfl

@[simp] theorem State.pop16_busCount (s : State) : s.pop16.2.busCount = s.busCount + 2 := rfl

@[simp] theorem State.writeTop_busCount (s : State) (w : Word) :
    (s.writeTop w).busCount = s.busCount + 2 := by
  unfold State.writeTop
  split <;> simp

/-- The byte at `sp` is written first (R144). -/
@[simp] theorem State.writeTop_out (s : State) (w : Word) :
    (s.writeTop w).out = { s.out with bus := s.out.bus ++
      (if s.cfg.stackHiAtSp then
        [.memWrite s.sp (hiByte w), .memWrite (s.sp + 1#16) (loByte w)]
      else
        [.memWrite s.sp (loByte w), .memWrite (s.sp + 1#16) (hiByte w)]) } := by
  unfold State.writeTop
  split <;> simp

theorem State.writeTop_wf {s : State} (w : Word) (hm : s.mem.wf = true) :
    (s.writeTop w).mem.wf = true := by
  unfold State.writeTop
  split <;> exact State.memWrite_wf _ _ (State.memWrite_wf _ _ hm)

/-! ### The end of a step -/

@[simp] theorem State.advance_pc (s : State) (i : Instr) : (s.advance i).pc = s.nextPc i := rfl

@[simp] theorem State.advance_cycles (s : State) (i : Instr) :
    (s.advance i).cycles = s.cycles + BitVec.ofNat 64 (s.cfg.baseCycles i.opcode) := rfl

@[simp] theorem State.jump_pc (s : State) (i : Instr) (w : Word) : (s.jump i w).pc = w := rfl

@[simp] theorem State.jump_cycles (s : State) (i : Instr) (w : Word) :
    (s.jump i w).cycles = s.cycles + BitVec.ofNat 64 (s.cfg.baseCycles i.opcode) := rfl

@[simp] theorem State.jumpTaken_pc (s : State) (i : Instr) (w : Word) :
    (s.jumpTaken i w).pc = w := rfl

@[simp] theorem State.jumpTaken_cycles (s : State) (i : Instr) (w : Word) :
    (s.jumpTaken i w).cycles = s.cycles +
      BitVec.ofNat 64 (s.cfg.baseCycles i.opcode + s.cfg.extraCycles i.opcode) := rfl

end Sys2Proof.Machine
end

