-- ==== Sys2Proof/Laws/PerInstr.lean ====
section
/-! SUPPORT. The family LengthOfEncoding: a well-formed instruction is encoded in as many bytes as its mode
says, and the decoder reads this length from its opcode byte. One lemma per constructor. -/

namespace Sys2Proof.Laws.LengthOfEncoding

/-- The opcode byte alone gives the length of the encoding, which is that of the addressing mode (R90, R92). -/
def Statement (i : Instr) : Prop :=
  i.wf = true → (encode i).length = i.length ∧ opLength i.opcode = i.length

theorem movRR (dst : Reg) (src : Reg) : Statement (.movRR dst src) :=
  fun _ => ⟨rfl, by cases dst <;> cases src <;> rfl⟩

theorem movRM (dst : Reg) : Statement (.movRM dst) :=
  fun _ => ⟨rfl, by cases dst <;> rfl⟩

theorem movMR (src : Reg) : Statement (.movMR src) :=
  fun _ => ⟨rfl, by cases src <;> rfl⟩

theorem mviR (dst : Reg) (d8 : Byte) : Statement (.mviR dst d8) :=
  fun _ => ⟨rfl, by cases dst <;> (simp only [Instr.opcode, Instr.length, Instr.mode]; decide)⟩

theorem mviM (d8 : Byte) : Statement (.mviM d8) :=
  fun _ => ⟨rfl, by simp only [Instr.opcode, Instr.length, Instr.mode]; decide⟩

theorem lxi (pr : Rp) (d16 : Word) : Statement (.lxi pr d16) :=
  fun _ => ⟨rfl, by cases pr <;> (simp only [Instr.opcode, Instr.length, Instr.mode]; decide)⟩

theorem lda (a16 : Word) : Statement (.lda a16) :=
  fun _ => ⟨rfl, by simp only [Instr.opcode, Instr.length, Instr.mode]; decide⟩

theorem sta (a16 : Word) : Statement (.sta a16) :=
  fun _ => ⟨rfl, by simp only [Instr.opcode, Instr.length, Instr.mode]; decide⟩

theorem lhld (a16 : Word) : Statement (.lhld a16) :=
  fun _ => ⟨rfl, by simp only [Instr.opcode, Instr.length, Instr.mode]; decide⟩

theorem shld (a16 : Word) : Statement (.shld a16) :=
  fun _ => ⟨rfl, by simp only [Instr.opcode, Instr.length, Instr.mode]; decide⟩

theorem ldax (pr : IndPair) : Statement (.ldax pr) :=
  fun _ => ⟨rfl, by cases pr <;> rfl⟩

theorem stax (pr : IndPair) : Statement (.stax pr) :=
  fun _ => ⟨rfl, by cases pr <;> rfl⟩

theorem xchg : Statement .xchg :=
  fun _ => ⟨rfl, rfl⟩

theorem push (pr : Pair) : Statement (.push pr) :=
  fun _ => ⟨rfl, by cases pr <;> rfl⟩

theorem pushPsw : Statement .pushPsw :=
  fun _ => ⟨rfl, rfl⟩

theorem pop (pr : Pair) : Statement (.pop pr) :=
  fun _ => ⟨rfl, by cases pr <;> rfl⟩

theorem popPsw : Statement .popPsw :=
  fun _ => ⟨rfl, rfl⟩

theorem xthl : Statement .xthl :=
  fun _ => ⟨rfl, rfl⟩

theorem sphl : Statement .sphl :=
  fun _ => ⟨rfl, rfl⟩

theorem jmp (a16 : Word) : Statement (.jmp a16) :=
  fun _ => ⟨rfl, by simp only [Instr.opcode, Instr.length, Instr.mode]; decide⟩

theorem jmpDup (a16 : Word) : Statement (.jmpDup a16) :=
  fun _ => ⟨rfl, by simp only [Instr.opcode, Instr.length, Instr.mode]; decide⟩

theorem jnz (a16 : Word) : Statement (.jnz a16) :=
  fun _ => ⟨rfl, by simp only [Instr.opcode, Instr.length, Instr.mode]; decide⟩

theorem jz (a16 : Word) : Statement (.jz a16) :=
  fun _ => ⟨rfl, by simp only [Instr.opcode, Instr.length, Instr.mode]; decide⟩

theorem jnc (a16 : Word) : Statement (.jnc a16) :=
  fun _ => ⟨rfl, by simp only [Instr.opcode, Instr.length, Instr.mode]; decide⟩

theorem jc (a16 : Word) : Statement (.jc a16) :=
  fun _ => ⟨rfl, by simp only [Instr.opcode, Instr.length, Instr.mode]; decide⟩

theorem jpo (a16 : Word) : Statement (.jpo a16) :=
  fun _ => ⟨rfl, by simp only [Instr.opcode, Instr.length, Instr.mode]; decide⟩

theorem jpe (a16 : Word) : Statement (.jpe a16) :=
  fun _ => ⟨rfl, by simp only [Instr.opcode, Instr.length, Instr.mode]; decide⟩

theorem jp (a16 : Word) : Statement (.jp a16) :=
  fun _ => ⟨rfl, by simp only [Instr.opcode, Instr.length, Instr.mode]; decide⟩

theorem jm (a16 : Word) : Statement (.jm a16) :=
  fun _ => ⟨rfl, by simp only [Instr.opcode, Instr.length, Instr.mode]; decide⟩

theorem call (a16 : Word) : Statement (.call a16) :=
  fun _ => ⟨rfl, by simp only [Instr.opcode, Instr.length, Instr.mode]; decide⟩

theorem callDup (p : BitVec 2) (a16 : Word) : Statement (.callDup p a16) :=
  fun h => by
    have hp : ∀ p : BitVec 2, (p != 0#2) = true → opLength (opByte 3#2 (p ++ 1#1) 5#3) = 3 := by decide
    exact ⟨rfl, hp p h⟩

theorem cnz (a16 : Word) : Statement (.cnz a16) :=
  fun _ => ⟨rfl, by simp only [Instr.opcode, Instr.length, Instr.mode]; decide⟩

theorem cz (a16 : Word) : Statement (.cz a16) :=
  fun _ => ⟨rfl, by simp only [Instr.opcode, Instr.length, Instr.mode]; decide⟩

theorem cnc (a16 : Word) : Statement (.cnc a16) :=
  fun _ => ⟨rfl, by simp only [Instr.opcode, Instr.length, Instr.mode]; decide⟩

theorem cc (a16 : Word) : Statement (.cc a16) :=
  fun _ => ⟨rfl, by simp only [Instr.opcode, Instr.length, Instr.mode]; decide⟩

theorem cpo (a16 : Word) : Statement (.cpo a16) :=
  fun _ => ⟨rfl, by simp only [Instr.opcode, Instr.length, Instr.mode]; decide⟩

theorem cpe (a16 : Word) : Statement (.cpe a16) :=
  fun _ => ⟨rfl, by simp only [Instr.opcode, Instr.length, Instr.mode]; decide⟩

theorem cp (a16 : Word) : Statement (.cp a16) :=
  fun _ => ⟨rfl, by simp only [Instr.opcode, Instr.length, Instr.mode]; decide⟩

theorem cm (a16 : Word) : Statement (.cm a16) :=
  fun _ => ⟨rfl, by simp only [Instr.opcode, Instr.length, Instr.mode]; decide⟩

theorem ret : Statement .ret :=
  fun _ => ⟨rfl, rfl⟩

theorem retDup : Statement .retDup :=
  fun _ => ⟨rfl, rfl⟩

theorem rnz : Statement .rnz :=
  fun _ => ⟨rfl, rfl⟩

theorem rz : Statement .rz :=
  fun _ => ⟨rfl, rfl⟩

theorem rnc : Statement .rnc :=
  fun _ => ⟨rfl, rfl⟩

theorem rc : Statement .rc :=
  fun _ => ⟨rfl, rfl⟩

theorem rpo : Statement .rpo :=
  fun _ => ⟨rfl, rfl⟩

theorem rpe : Statement .rpe :=
  fun _ => ⟨rfl, rfl⟩

theorem rp : Statement .rp :=
  fun _ => ⟨rfl, rfl⟩

theorem rm : Statement .rm :=
  fun _ => ⟨rfl, rfl⟩

theorem rst (n : BitVec 3) : Statement (.rst n) :=
  fun _ => ⟨rfl, by
    revert n
    decide⟩

theorem pchl : Statement .pchl :=
  fun _ => ⟨rfl, rfl⟩

theorem inrR (r : Reg) : Statement (.inrR r) :=
  fun _ => ⟨rfl, by cases r <;> rfl⟩

theorem inrM : Statement .inrM :=
  fun _ => ⟨rfl, rfl⟩

theorem dcrR (r : Reg) : Statement (.dcrR r) :=
  fun _ => ⟨rfl, by cases r <;> rfl⟩

theorem dcrM : Statement .dcrM :=
  fun _ => ⟨rfl, rfl⟩

theorem inx (pr : Rp) : Statement (.inx pr) :=
  fun _ => ⟨rfl, by cases pr <;> rfl⟩

theorem dcx (pr : Rp) : Statement (.dcx pr) :=
  fun _ => ⟨rfl, by cases pr <;> rfl⟩

theorem add (src : Operand8) : Statement (.add src) :=
  fun _ => by
    cases src with
    | reg r => exact ⟨rfl, by cases r <;> rfl⟩
    | m => exact ⟨rfl, rfl⟩

theorem adc (src : Operand8) : Statement (.adc src) :=
  fun _ => by
    cases src with
    | reg r => exact ⟨rfl, by cases r <;> rfl⟩
    | m => exact ⟨rfl, rfl⟩

theorem sub (src : Operand8) : Statement (.sub src) :=
  fun _ => by
    cases src with
    | reg r => exact ⟨rfl, by cases r <;> rfl⟩
    | m => exact ⟨rfl, rfl⟩

theorem sbb (src : Operand8) : Statement (.sbb src) :=
  fun _ => by
    cases src with
    | reg r => exact ⟨rfl, by cases r <;> rfl⟩
    | m => exact ⟨rfl, rfl⟩

theorem adi (d8 : Byte) : Statement (.adi d8) :=
  fun _ => ⟨rfl, by simp only [Instr.opcode, Instr.length, Instr.mode]; decide⟩

theorem aci (d8 : Byte) : Statement (.aci d8) :=
  fun _ => ⟨rfl, by simp only [Instr.opcode, Instr.length, Instr.mode]; decide⟩

theorem sui (d8 : Byte) : Statement (.sui d8) :=
  fun _ => ⟨rfl, by simp only [Instr.opcode, Instr.length, Instr.mode]; decide⟩

theorem sbi (d8 : Byte) : Statement (.sbi d8) :=
  fun _ => ⟨rfl, by simp only [Instr.opcode, Instr.length, Instr.mode]; decide⟩

theorem dad (pr : Rp) : Statement (.dad pr) :=
  fun _ => ⟨rfl, by cases pr <;> rfl⟩

theorem ana (src : Operand8) : Statement (.ana src) :=
  fun _ => by
    cases src with
    | reg r => exact ⟨rfl, by cases r <;> rfl⟩
    | m => exact ⟨rfl, rfl⟩

theorem xra (src : Operand8) : Statement (.xra src) :=
  fun _ => by
    cases src with
    | reg r => exact ⟨rfl, by cases r <;> rfl⟩
    | m => exact ⟨rfl, rfl⟩

theorem ora (src : Operand8) : Statement (.ora src) :=
  fun _ => by
    cases src with
    | reg r => exact ⟨rfl, by cases r <;> rfl⟩
    | m => exact ⟨rfl, rfl⟩

theorem cmp (src : Operand8) : Statement (.cmp src) :=
  fun _ => by
    cases src with
    | reg r => exact ⟨rfl, by cases r <;> rfl⟩
    | m => exact ⟨rfl, rfl⟩

theorem ani (d8 : Byte) : Statement (.ani d8) :=
  fun _ => ⟨rfl, by simp only [Instr.opcode, Instr.length, Instr.mode]; decide⟩

theorem xri (d8 : Byte) : Statement (.xri d8) :=
  fun _ => ⟨rfl, by simp only [Instr.opcode, Instr.length, Instr.mode]; decide⟩

theorem ori (d8 : Byte) : Statement (.ori d8) :=
  fun _ => ⟨rfl, by simp only [Instr.opcode, Instr.length, Instr.mode]; decide⟩

theorem cpi (d8 : Byte) : Statement (.cpi d8) :=
  fun _ => ⟨rfl, by simp only [Instr.opcode, Instr.length, Instr.mode]; decide⟩

theorem rlc : Statement .rlc :=
  fun _ => ⟨rfl, rfl⟩

theorem rrc : Statement .rrc :=
  fun _ => ⟨rfl, rfl⟩

theorem ral : Statement .ral :=
  fun _ => ⟨rfl, rfl⟩

theorem rar : Statement .rar :=
  fun _ => ⟨rfl, rfl⟩

theorem cma : Statement .cma :=
  fun _ => ⟨rfl, rfl⟩

theorem stc : Statement .stc :=
  fun _ => ⟨rfl, rfl⟩

theorem cmc : Statement .cmc :=
  fun _ => ⟨rfl, rfl⟩

theorem daa : Statement .daa :=
  fun _ => ⟨rfl, rfl⟩

theorem inp (p8 : Byte) : Statement (.inp p8) :=
  fun _ => ⟨rfl, by simp only [Instr.opcode, Instr.length, Instr.mode]; decide⟩

theorem out (p8 : Byte) : Statement (.out p8) :=
  fun _ => ⟨rfl, by simp only [Instr.opcode, Instr.length, Instr.mode]; decide⟩

theorem ei : Statement .ei :=
  fun _ => ⟨rfl, rfl⟩

theorem di : Statement .di :=
  fun _ => ⟨rfl, rfl⟩

theorem nop : Statement .nop :=
  fun _ => ⟨rfl, rfl⟩

theorem nopDup (n : BitVec 3) : Statement (.nopDup n) :=
  fun h => ⟨rfl, by
    revert h
    revert n
    decide⟩

theorem hlt : Statement .hlt :=
  fun _ => ⟨rfl, rfl⟩

end Sys2Proof.Laws.LengthOfEncoding
end

