-- ==== Sys2Proof/Laws/Run.lean ====
section
/-! SUPPORT. What a run does: where it ends, how it goes on, and the induction over its steps. -/

namespace Sys2Proof.Machine

variable {stop : Nat → State → Bool} {made k : Nat} {s t u : State}

/-- At a state where the run ends no step is made, the start state included (R305). -/
theorem runFrom_of_ends (h : runEnds stop made s = true) : runFrom stop made k s = .next s := by
  cases k <;> simp [runFrom, h]

/-- At any other state a budget allows one step more. -/
theorem runFrom_of_step (h : runEnds stop made s = false) (hs : step s = .next t) :
    runFrom stop made (k + 1) s = runFrom stop (made + 1) k t := by
  simp [runFrom, h, hs]

/-- What a run with a budget does, once for all: it ends where it stands, or it makes one step and goes on. -/
theorem runFrom_succ_cases (h : runFrom stop made (k + 1) s = .next u) :
    (runEnds stop made s = true ∧ u = s) ∨
    (runEnds stop made s = false ∧ ∃ t, step s = .next t ∧ runFrom stop (made + 1) k t = .next u) := by
  cases he : runEnds stop made s with
  | true => rw [runFrom_of_ends he] at h; cases h; exact .inl ⟨rfl, rfl⟩
  | false =>
    simp only [runFrom, he] at h
    cases hs : step s with
    | next t => rw [hs] at h; exact .inr ⟨rfl, t, rfl, h⟩
    | fault r => exact nomatch r
    | refused r => simp [hs] at h

/-- A run ends at a state where it is to end, or when its budget is spent (R305). -/
theorem runFrom_ends_or_spent (h : runFrom stop made k s = .next u) :
    ∃ n, n ≤ k ∧ (runEnds stop (made + n) u = true ∨ n = k) := by
  induction k generalizing made s with
  | zero => exact ⟨0, Nat.le_refl 0, .inr rfl⟩
  | succ k ih =>
    obtain ⟨he, rfl⟩ | ⟨-, t, -, ht⟩ := runFrom_succ_cases h
    · exact ⟨0, Nat.zero_le _, .inl he⟩
    · obtain ⟨n, hn, hu⟩ := ih ht
      refine ⟨n + 1, by omega, hu.imp (fun e => ?_) (by omega)⟩
      rwa [show made + (n + 1) = made + 1 + n by omega]

/-- What every step keeps, a run keeps. -/
theorem runFrom_keeps (P : State → Prop) (hstep : ∀ s t, P s → step s = .next t → P t)
    (hs : P s) (h : runFrom stop made k s = .next u) : P u := by
  induction k generalizing made s with
  | zero => cases h; exact hs
  | succ k ih =>
    obtain ⟨-, rfl⟩ | ⟨-, t, ht, hu⟩ := runFrom_succ_cases h
    · exact hs
    · exact ih (hstep _ _ hs ht) hu

end Sys2Proof.Machine
end

