-- ==== Sys2Proof/Laws/Safety.lean ====
section
/-! SUPPORT. The words claims are written in: what a write stores, what a push stores. -/

namespace Sys2Proof.Machine

/-- Two addresses next to each other differ, at the end of the address space too. -/
theorem succ_ne_self (a : Word) : a + 1#16 ≠ a := by bv_omega

theorem ne_succ_self (a : Word) : a ≠ a + 1#16 := by bv_omega

/-- Only the byte at the address counts. -/
theorem Stored.congr {s t t' : State} {a : Word} {v : Byte} (h : Stored s t a v)
    (hc : t'.cell a = t.cell a) : Stored s t' a v :=
  ⟨fun hm hk => hc.trans (h.ram hm hk), fun hk => hc.trans (h.other hk)⟩

/-- What a write stores does not depend on `sp`. -/
theorem Stored.of_setSp {s t : State} {w a : Word} {v : Byte} (h : Stored (s.setSp w) t a v) :
    Stored s t a v := ⟨h.ram, h.other⟩

/-- A write stores its byte. -/
theorem memWrite_stored (s : State) (a : Word) (v : Byte) : Stored s (s.memWrite a v) a v :=
  ⟨fun hm hk => by rw [State.memWrite_cell_ram v a hm hk, if_pos rfl],
    fun hk => State.memWrite_cell_not_ram v a hk⟩

/-- A write elsewhere leaves a stored byte alone. -/
theorem Stored.memWrite {s t : State} {a b : Word} {v : Byte} (h : Stored s t a v) (u : Byte)
    (hab : a ≠ b) : Stored s (t.memWrite b u) a v :=
  h.congr (State.memWrite_cell_ne t u hab)

/-- The second of two writes stores its byte. -/
theorem memWrite_memWrite_stored (s : State) {a b : Word} (v u : Byte) (hab : a ≠ b) :
    Stored s ((s.memWrite b u).memWrite a v) a v := by
  refine ⟨fun hm hk => ?_, fun hk => ?_⟩
  · rw [State.memWrite_cell_ram v a (State.memWrite_wf b u hm) (by simpa using hk), if_pos rfl]
  · rw [State.memWrite_cell_not_ram v a (by simpa using hk), State.memWrite_cell_ne s u hab]

/-- A little-endian store of a word stores both bytes (R65). -/
theorem memWrite16_stored (s : State) (a w : Word) :
    Stored s (s.memWrite16 a w) a (loByte w) ∧ Stored s (s.memWrite16 a w) (a + 1#16) (hiByte w) :=
  ⟨(memWrite_stored s a _).memWrite _ (ne_succ_self a),
    memWrite_memWrite_stored s _ _ (succ_ne_self a)⟩

/-- A push stores both bytes of its word and lowers `sp` by 2 (R70). -/
theorem push16_pushed (s : State) (w : Word) : Pushed s (s.push16 w) w := by
  have hs := succ_ne_self (s.sp - 2#16)
  have hn := ne_succ_self (s.sp - 2#16)
  by_cases hb : s.cfg.stackHiAtSp = true
  · refine ⟨by simp, ?_, ?_⟩ <;> simp only [State.push16, State.hiSlot, State.loSlot, hb, if_true,
      State.setSp_cfg, State.setSp_sp]
    · exact ((memWrite_stored _ _ _).memWrite _ hn).of_setSp
    · exact (memWrite_memWrite_stored _ _ _ hs).of_setSp
  · refine ⟨by simp, ?_, ?_⟩ <;> simp only [State.push16, State.hiSlot, State.loSlot, hb, if_false, Bool.false_eq_true,
      State.setSp_cfg, State.setSp_sp]
    · exact ((memWrite_stored _ _ _).memWrite _ hs).of_setSp
    · exact (memWrite_memWrite_stored _ _ _ hn).of_setSp

/-- Over the top of the stack both bytes are stored (R144). -/
theorem writeTop_stored (s : State) (w : Word) :
    Stored s (s.writeTop w) (s.hiSlot s.sp) (hiByte w) ∧
      Stored s (s.writeTop w) (s.loSlot s.sp) (loByte w) := by
  have hs := succ_ne_self s.sp
  have hn := ne_succ_self s.sp
  by_cases hb : s.cfg.stackHiAtSp = true
  · simp only [State.writeTop, State.hiSlot, State.loSlot, hb, if_true]
    exact ⟨(memWrite_stored s _ _).memWrite _ hn, memWrite_memWrite_stored s _ _ hs⟩
  · simp only [State.writeTop, State.hiSlot, State.loSlot, hb, if_false, Bool.false_eq_true]
    exact ⟨memWrite_memWrite_stored s _ _ hs, (memWrite_stored s _ _).memWrite _ hn⟩

theorem writeTop_cell_ne (s : State) (w : Word) {b : Word} (h0 : b ≠ s.sp) (h1 : b ≠ s.sp + 1#16) :
    (s.writeTop w).cell b = s.cell b := by
  unfold State.writeTop
  split <;> rw [State.memWrite_cell_ne _ _ h1, State.memWrite_cell_ne _ _ h0]

/-- Only `sp` and the bytes count. -/
theorem Pushed.congr {s t t' : State} {w : Word} (h : Pushed s t w) (hsp : t'.sp = t.sp)
    (hc : ∀ a, t'.cell a = t.cell a) : Pushed s t' w :=
  ⟨hsp.trans h.sp, h.high.congr (hc _), h.low.congr (hc _)⟩

/-- A push makes its two writes, the high byte first (R70). -/
theorem push16_out_events (s : State) (w : Word) :
    (s.push16 w).out = { s.out with bus := s.out.bus ++ s.pushEvents w } := by
  by_cases h : s.cfg.stackHiAtSp = true <;> simp [State.pushEvents, State.hiSlot, State.loSlot, h]

/-- A push changes `sp` and the two bytes of its slot, nothing else. -/
theorem push16_keeps (s : State) (w : Word) : Keeps s (s.push16 w) [.sp] s.pushSlots := by
  refine ⟨fun x hx => ?_, fun a ha => ?_⟩
  · cases x <;> simp_all [Piece.same]
  · simp only [State.pushSlots, List.mem_cons, List.not_mem_nil, or_false, not_or] at ha
    exact State.push16_cell_ne s w ha.1 ha.2

/-- A write changes the byte at its address, nothing else. -/
theorem memWrite_keeps (s : State) (a : Word) (v : Byte) : Keeps s (s.memWrite a v) [] [a] := by
  refine ⟨fun x _ => ?_, fun b hb => State.memWrite_cell_ne s v (by simpa using hb)⟩
  cases x <;> simp [Piece.same]

/-- The end of an operation changes `pc` and `cycles` only. -/
theorem Keeps.advance {s t : State} {changed : List Piece} {stored : List Word}
    (h : Keeps s t changed stored) (i : Instr) : Keeps s (t.advance i) changed stored :=
  ⟨fun x hx => by have := h.pieces x hx; cases x <;> exact this, h.bytes⟩

theorem Keeps.jump {s t : State} {changed : List Piece} {stored : List Word}
    (h : Keeps s t changed stored) (i : Instr) (w : Word) : Keeps s (t.jump i w) changed stored :=
  ⟨fun x hx => by have := h.pieces x hx; cases x <;> exact this, h.bytes⟩

theorem Keeps.jumpTaken {s t : State} {changed : List Piece} {stored : List Word}
    (h : Keeps s t changed stored) (i : Instr) (w : Word) :
    Keeps s (t.jumpTaken i w) changed stored :=
  ⟨fun x hx => by have := h.pieces x hx; cases x <;> exact this, h.bytes⟩

/-- The word at the top of the stack (R71). -/
theorem pop16_topWord (s : State) : s.pop16.1 = s.topWord := by simp [State.topWord]

end Sys2Proof.Machine
end

