-- ==== Sys2Proof/Laws/Step.lean ====
section
/-! SUPPORT. The fetch: which instruction it reads, and the state it hands to the operation. -/

namespace Sys2Proof.Machine

/-- The reads of the three bytes from `pc` on. -/
def State.fetchEvents (s : State) : List BusEvent :=
  [.memRead s.pc (s.answer 0 s.pc), .memRead (s.pc + 1#16) (s.answer 1 (s.pc + 1#16)),
    .memRead (s.pc + 2#16) (s.answer 2 (s.pc + 2#16))]

/-- The resolver reads no operand byte that the mode does not have. -/
theorem State.resolve_of_length_one (s : State) {m : Mode} (b2 b3 : Byte) (h : m.length = 1) :
    s.resolve m 0#8 0#8 = s.resolve m b2 b3 := by
  cases m <;> simp_all [Mode.length, State.resolve]

theorem State.resolve_of_length_two (s : State) {m : Mode} (b2 b3 : Byte) (h : m.length = 2) :
    s.resolve m b2 0#8 = s.resolve m b2 b3 := by
  cases m <;> simp_all [Mode.length, State.resolve]

/-- The instruction fetched is the one the three bytes decode to (R92, R98). -/
theorem State.fetch_instr (s : State) :
    s.fetch.1 =
      decodeOp (s.answer 0 s.pc) (s.answer 1 (s.pc + 1#16)) (s.answer 2 (s.pc + 2#16)) := by
  rcases opLength_cases (s.answer 0 s.pc) with e | e | e
  · rw [decodeOp_of_length_one _ _ e]
    simp [State.fetch, e, State.decoded]
  · rw [decodeOp_of_length_two _ _ e]
    simp [State.fetch, e, State.decoded]
  · simp [State.fetch, e, State.decoded]

/-- The operation runs on the same state but for the record of the fetch (R110 items 1 and 2). -/
theorem State.fetch_state (s : State) :
    s.fetch.2 = { s with
      busCount := s.busCount + s.fetch.1.length
      out :=
        { opcode := some (s.answer 0 s.pc)
          operand := s.resolve s.fetch.1.mode (s.answer 1 (s.pc + 1#16)) (s.answer 2 (s.pc + 2#16))
          bus := s.fetchEvents.take s.fetch.1.length } } := by
  have hlen : s.fetch.1.length = opLength (s.answer 0 s.pc) := by
    rw [State.fetch_instr, decodeOp_length]
  generalize hi : s.fetch.1 = i at hlen
  have hm : i.mode.length = opLength (s.answer 0 s.pc) := hlen
  rcases opLength_cases (s.answer 0 s.pc) with e | e | e
  · rw [e] at hm
    rw [hlen, e, ← s.resolve_of_length_one _ _ hm, ← hi]
    simp only [State.fetch, State.decoded, State.memRead, State.beginStep_answer, e]
    rfl
  · rw [e] at hm
    rw [hlen, e, ← s.resolve_of_length_two _ _ hm, ← hi]
    simp only [State.fetch, State.decoded, State.memRead, State.beginStep_answer, State.note_answer, e]
    rfl
  · rw [hlen, e, ← hi]
    simp only [State.fetch, State.decoded, State.memRead, State.beginStep_answer, State.note_answer, e]
    rfl

end Sys2Proof.Machine
end

