-- ==== Sys2Proof/Tests/Slice0.lean ====
section
/-! SUPPORT. Tests: ill-formed terms refused, words written out from the spec's encodings, single steps with
the results of spec/95_test_vectors.md (V<n>) or worked out by hand from the rule named, and for every
statement with hypotheses a concrete state that meets them. -/

namespace Sys2Proof.Tests

open Machine

/-! ## Well-formedness -/

/-- `00 000 000` is NOP, not one of its duplicates (R249). -/
theorem test_wf_nopDup_zero : (Instr.nopDup 0).wf = false := by decide

/-- `11 001 101` is CALL, not one of its duplicates (R162). -/
theorem test_wf_callDup_zero : (Instr.callDup 0 0x2000).wf = false := by decide

theorem test_wf_accepts : (Instr.nopDup 1).wf = true ∧ (Instr.callDup 3 0).wf = true ∧
    Instr.nop.wf = true := by decide

/-! ## Decoding words written out from the spec's encodings -/

/-- The bytes are one instruction, whole, and this one. -/
def readsAs (rows : List (List Byte × Instr)) : Bool :=
  rows.all fun row =>
    match decode row.1 with
    | .ok (i, rest) => decide (i = row.2) && rest.isEmpty
    | .error _ => false

/-- R120 to R125: `01 DDD SSS`, `00 DDD 110 d8`, `00 RP0 001 lo hi`. -/
theorem test_decode_mov_mvi_lxi : readsAs
    [([0b01000111], .movRR .b .a), ([0b01111000], .movRR .a .b), ([0b01011110], .movRM .e),
      ([0b01110100], .movMR .h), ([0b00001110, 0xFF], .mviR .c 0xFF),
      ([0b00110110, 0x3C], .mviM 0x3C), ([0b00000001, 0x34, 0x12], .lxi .bc 0x1234),
      ([0b00110001, 0x00, 0x24], .lxi .sp 0x2400)] = true := by decide

/-- R126 to R132: the direct addresses, LDAX, STAX, XCHG. -/
theorem test_decode_direct_and_pairs : readsAs
    [([0b00111010, 0x50, 0x20], .lda 0x2050), ([0b00110010, 0x51, 0x20], .sta 0x2051),
      ([0b00101010, 0x60, 0x20], .lhld 0x2060), ([0b00100010, 0x62, 0x20], .shld 0x2062),
      ([0b00001010], .ldax .bc), ([0b00011010], .ldax .de), ([0b00000010], .stax .bc),
      ([0b00010010], .stax .de), ([0b11101011], .xchg)] = true := by decide

/-- R140 to R145. -/
theorem test_decode_stack : readsAs
    [([0b11000101], .push .bc), ([0b11100101], .push .hl), ([0b11110101], .pushPsw),
      ([0b11010001], .pop .de), ([0b11110001], .popPsw), ([0b11100011], .xthl),
      ([0b11111001], .sphl)] = true := by decide

/-- R150, R151, R157, R160: `11 CCC 010 lo hi`. -/
theorem test_decode_jumps : readsAs
    [([0b11000011, 0x50, 0x01], .jmp 0x0150), ([0b11001011, 0x50, 0x01], .jmpDup 0x0150),
      ([0b11101001], .pchl), ([0b11000010, 0x00, 0x20], .jnz 0x2000),
      ([0b11001010, 0x00, 0x20], .jz 0x2000), ([0b11010010, 0x00, 0x20], .jnc 0x2000),
      ([0b11011010, 0x00, 0x20], .jc 0x2000), ([0b11100010, 0x00, 0x20], .jpo 0x2000),
      ([0b11101010, 0x00, 0x20], .jpe 0x2000), ([0b11110010, 0x00, 0x20], .jp 0x2000),
      ([0b11111010, 0x00, 0x20], .jm 0x2000)] = true := by decide

/-- R152, R153, R156, R162: `11 CCC 100 lo hi`, `11 NNN 111`. -/
theorem test_decode_calls : readsAs
    [([0b11001101, 0x00, 0x20], .call 0x2000), ([0b11011101, 0x00, 0x20], .callDup 1 0x2000),
      ([0b11111101, 0x00, 0x20], .callDup 3 0x2000), ([0b11000100, 0x00, 0x20], .cnz 0x2000),
      ([0b11001100, 0x00, 0x20], .cz 0x2000), ([0b11010100, 0x00, 0x20], .cnc 0x2000),
      ([0b11011100, 0x00, 0x20], .cc 0x2000), ([0b11100100, 0x00, 0x20], .cpo 0x2000),
      ([0b11101100, 0x00, 0x20], .cpe 0x2000), ([0b11110100, 0x00, 0x20], .cp 0x2000),
      ([0b11111100, 0x00, 0x20], .cm 0x2000), ([0b11000111], .rst 0), ([0b11111111], .rst 7)] = true := by decide

/-- R154, R155, R161: `11 CCC 000`. -/
theorem test_decode_returns : readsAs
    [([0b11001001], .ret), ([0b11011001], .retDup), ([0b11000000], .rnz), ([0b11001000], .rz),
      ([0b11010000], .rnc), ([0b11011000], .rc), ([0b11100000], .rpo), ([0b11101000], .rpe),
      ([0b11110000], .rp), ([0b11111000], .rm)] = true := by decide

/-- R170 to R175. -/
theorem test_decode_inc_dec : readsAs
    [([0b00111100], .inrR .a), ([0b00110100], .inrM), ([0b00001101], .dcrR .c),
      ([0b00110101], .dcrM), ([0b00100011], .inx .hl), ([0b00110011], .inx .sp),
      ([0b00001011], .dcx .bc), ([0b00111011], .dcx .sp)] = true := by decide

/-- R181 to R189: `10 AAA SSS`, `11 AAA 110 d8`, `00 RP1 001`. -/
theorem test_decode_arithmetic : readsAs
    [([0b10000000], .add (.reg .b)), ([0b10000110], .add .m), ([0b10001001], .adc (.reg .c)),
      ([0b10010111], .sub (.reg .a)), ([0b10011101], .sbb (.reg .l)),
      ([0b11000110, 0x42], .adi 0x42), ([0b11001110, 0x42], .aci 0x42),
      ([0b11010110, 0x01], .sui 0x01), ([0b11011110, 0x01], .sbi 0x01), ([0b00001001], .dad .bc),
      ([0b00111001], .dad .sp)] = true := by decide

/-- R201 to R208. -/
theorem test_decode_logic : readsAs
    [([0b10100000], .ana (.reg .b)), ([0b10101111], .xra (.reg .a)), ([0b10110111], .ora (.reg .a)),
      ([0b10111000], .cmp (.reg .b)), ([0b10111110], .cmp .m), ([0b11100110, 0x0F], .ani 0x0F),
      ([0b11101110, 0x81], .xri 0x81), ([0b11110110, 0x0F], .ori 0x0F),
      ([0b11111110, 0x40], .cpi 0x40)] = true := by decide

/-- R220 to R233. -/
theorem test_decode_rotate_special : readsAs
    [([0b00000111], .rlc), ([0b00001111], .rrc), ([0b00010111], .ral), ([0b00011111], .rar),
      ([0b00101111], .cma), ([0b00110111], .stc), ([0b00111111], .cmc), ([0b00100111], .daa)] = true := by decide

/-- R240 to R249. -/
theorem test_decode_io_control : readsAs
    [([0b11011011, 0x10], .inp 0x10), ([0b11010011, 0x01], .out 0x01), ([0b11111011], .ei),
      ([0b11110011], .di), ([0b00000000], .nop), ([0b00001000], .nopDup 1),
      ([0b00111000], .nopDup 7), ([0b01110110], .hlt)] = true := by decide

/-- A byte string that ends inside an instruction is refused by name (R90). -/
theorem test_decode_truncated :
    (match decode [0x3A, 0x50] with
      | .ok _ => none
      | .error e => some e) = some (DecodeError.truncated 0x3A) := by decide

/-- Words numbered as the opcode table numbers them: `CALL 0x2000` and `MVI A` of operand 0. -/
theorem test_decodeTableWord :
    decodeTableWord 24 0x2000CD = some (.call 0x2000) ∧ decodeTableWord 8 0x3E = some (.mviR .a 0) := by
  decide

/-! ## Single steps -/

/-- RAM everywhere, some bytes at an address, `pc` there (spec/95_test_vectors.md section 2). -/
def boot (a : Word) (bytes : List Byte) : State :=
  (({ State.reset with memMap := MemMap.ram64k }).setPc a).hostLoad a bytes

/-- The same with `SUB_AUX_MODE` = `borrow`. -/
def bootBorrow (a : Word) (bytes : List Byte) : State :=
  { boot a bytes with cfg := { Config.default with subAuxMode := .borrow } }

/-- The same with `STACK_HI_AT_SP` = false. -/
def bootLow (a : Word) (bytes : List Byte) : State :=
  { boot a bytes with cfg := { Config.default with stackHiAtSp := false } }

/-- The state with the flags of a status byte. -/
def withStatus (f : Byte) (s : State) : State := s.setFlags (Flags.ofStatusByte f)

/-- The state after one step. -/
def after (s : State) : Option State :=
  match step s with
  | .next t => some t
  | .fault _ => none
  | .refused _ => none

/-! ### Data transfer -/

/-- V1. -/
theorem test_mov_r_r :
    (after (boot 0x0000 [0x47] |>.setReg .a 0x5A)).map
        (fun t => (t.reg .b, t.status)) = some (0x5A, 0x02) := by decide

/-- V3. -/
theorem test_mov_r_m :
    (after (boot 0x0000 [0x5E] |>.setReg .h 0x20 |>.setReg .l 0x10 |>.hostWrite 0x2010 0x77)).map
        (fun t => (t.reg .e, t.cycles)) = some (0x77, 7) := by decide

/-- V5. -/
theorem test_mov_m_r :
    (after (boot 0x0000 [0x74] |>.setReg .h 0x20 |>.setReg .l 0x10)).map
        (fun t => (t.cell 0x2010, t.cycles)) = some (0x20, 7) := by decide

/-- V6. -/
theorem test_mvi_r :
    (after (boot 0x0000 [0x0E, 0xFF])).map
        (fun t => (t.reg .c, t.pc)) = some (0xFF, 0x0002) := by decide

/-- V7. -/
theorem test_mvi_m :
    (after (boot 0x0000 [0x36, 0x3C] |>.setReg .h 0x30 |>.setReg .l 0x00)).map
        (fun t => (t.cell 0x3000, t.cycles)) = some (0x3C, 10) := by decide

/-- V8. -/
theorem test_lxi :
    (after (boot 0x0000 [0x01, 0x34, 0x12])).map
        (fun t => (t.reg .b, t.reg .c)) = some (0x12, 0x34) := by decide

/-- V10. -/
theorem test_lxi_wraps :
    (after (boot 0xFFFE [0x21, 0xEF, 0xBE] |>.hostWrite 0x0000 0xBE)).map
        (fun t => (t.reg .h, t.pc)) = some (0xBE, 0x0001) := by decide

/-- V12. -/
theorem test_lda_highest :
    (after (boot 0x0000 [0x3A, 0xFF, 0xFF] |>.hostWrite 0xFFFF 0x11)).map
        (fun t => (t.reg .a, t.cycles)) = some (0x11, 13) := by decide

/-- V13. -/
theorem test_sta :
    (after (boot 0x0000 [0x32, 0x51, 0x20] |>.setReg .a 0xCD)).map
        (fun t => (t.cell 0x2051, t.pc)) = some (0xCD, 0x0003) := by decide

/-- V15. -/
theorem test_lhld_wraps :
    (after (boot 0x0000 [0x2A, 0xFF, 0xFF] |>.hostWrite 0xFFFF 0x34)).map
        (fun t => (t.reg .h, t.reg .l)) = some (0x2A, 0x34) := by decide

/-- V16. -/
theorem test_shld :
    (after (boot 0x0000 [0x22, 0x62, 0x20] |>.setReg .h 0xAE |>.setReg .l 0x29)).map
        (fun t => (t.cell 0x2062, t.cell 0x2063)) = some (0x29, 0xAE) := by decide

/-- V18. -/
theorem test_ldax :
    (after (boot 0x0000 [0x1A] |>.setReg .d 0x20 |>.setReg .e 0x51 |>.hostWrite 0x2051 0x43)).map
        (fun t => (t.reg .a, t.pc)) = some (0x43, 0x0001) := by decide

/-- V20. -/
theorem test_stax :
    (after (boot 0x0000 [0x12] |>.setReg .d 0x20 |>.setReg .e 0x53 |>.setReg .a 0x45)).map
        (fun t => (t.cell 0x2053, t.pc)) = some (0x45, 0x0001) := by decide

/-- V21. -/
theorem test_xchg :
    (after (boot 0x0000 [0xEB] |>.setReg .d 0x33 |>.setReg .e 0x55 |>.setReg .h 0x00
       |>.setReg .l 0xFF)).map
        (fun t => (t.reg .h, t.reg .e)) = some (0x33, 0xFF) := by decide

/-! ### Stack -/

/-- V30. -/
theorem test_push :
    (after (boot 0x0000 [0xC5] |>.setReg .b 0x12 |>.setReg .c 0x34 |>.setSp 0x2400)).map
        (fun t => (t.cell 0x23FE, t.sp)) = some (0x12, 0x23FE) := by decide

/-- V33. -/
theorem test_push_wraps :
    (after (boot 0x0000 [0xD5] |>.setReg .d 0xAA |>.setReg .e 0xBB |>.setSp 0x0001)).map
        (fun t => (t.cell 0xFFFF, t.cell 0x0000)) = some (0xAA, 0xBB) := by decide

/-- V31. -/
theorem test_push_psw :
    (after (boot 0x0000 [0xF5] |>.setReg .a 0x1F |> withStatus 0x47 |>.setSp 0x502A)).map
        (fun t => (t.cell 0x5028, t.cell 0x5029)) = some (0x1F, 0x47) := by decide

/-- V37. -/
theorem test_pop_wraps :
    (after (boot 0x0000 [0xC1] |>.setSp 0xFFFF |>.hostWrite 0xFFFF 0x12)).map
        (fun t => (t.reg .b, t.sp)) = some (0x12, 0x0001) := by decide

/-- V35. -/
theorem test_pop_psw_ones :
    (after (boot 0x0000 [0xF1] |>.setSp 0x2FFE |>.hostWrite 0x2FFE 0x55
       |>.hostWrite 0x2FFF 0xFF)).map
        (fun t => (t.reg .a, t.status)) = some (0x55, 0xD7) := by decide

/-- V36. -/
theorem test_pop_psw_zeros :
    (after (boot 0x0000 [0xF1] |>.setSp 0x2FFE |>.hostWrite 0x2FFE 0x55
       |>.hostWrite 0x2FFF 0x00)).map
        (fun t => (t.reg .a, t.status)) = some (0x55, 0x02) := by decide

/-- V38. -/
theorem test_xthl :
    (after (boot 0x0000 [0xE3] |>.setReg .h 0x0B |>.setReg .l 0x3C |>.setSp 0x10AD
       |>.hostWrite 0x10AD 0xF0 |>.hostWrite 0x10AE 0x0D)).map
        (fun t => (t.reg .h, t.cell 0x10AE)) = some (0xF0, 0x3C) := by decide

/-- V39. -/
theorem test_sphl :
    (after (boot 0x0000 [0xF9] |>.setReg .h 0x50 |>.setReg .l 0x6C)).map
        (fun t => (t.sp, t.cycles)) = some (0x506C, 5) := by decide

/-! ### Control transfer -/

/-- V51. -/
theorem test_jmp_wraps :
    (after (boot 0xFFFE [0xC3, 0x34, 0x12] |>.hostWrite 0x0000 0x12)).map
        (fun t => (t.pc, t.cycles)) = some (0x1234, 10) := by decide

/-- V68. -/
theorem test_jmpDup :
    (after (boot 0x0000 [0xCB, 0x00, 0x3E])).map
        (fun t => (t.pc, t.cycles)) = some (0x3E00, 10) := by decide

/-- V59. -/
theorem test_call :
    (after (boot 0x0100 [0xCD, 0x00, 0x20] |>.setSp 0x2400)).map
        (fun t => (t.cell 0x23FF, t.pc)) = some (0x03, 0x2000) := by decide

/-- V72. -/
theorem test_callDup :
    (after (boot 0x0100 [0xFD, 0x00, 0x20] |>.setSp 0x2400)).map
        (fun t => (t.cell 0x23FE, t.cycles)) = some (0x01, 17) := by decide

/-- V62. -/
theorem test_ret :
    (after (boot 0x2000 [0xC9] |>.setSp 0x23FE |>.hostWrite 0x23FE 0x01
       |>.hostWrite 0x23FF 0x03)).map
        (fun t => (t.pc, t.sp)) = some (0x0103, 0x2400) := by decide

/-- V69. -/
theorem test_retDup :
    (after (boot 0x2000 [0xD9] |>.setSp 0x23FE |>.hostWrite 0x23FE 0x01
       |>.hostWrite 0x23FF 0x03)).map
        (fun t => (t.pc, t.cycles)) = some (0x0103, 10) := by decide

/-- V66. -/
theorem test_rst :
    (after (boot 0x0150 [0xFF] |>.setSp 0x2400)).map
        (fun t => (t.cell 0x23FF, t.pc)) = some (0x51, 0x0038) := by decide

/-- V67. -/
theorem test_pchl :
    (after (boot 0x0000 [0xE9] |>.setReg .h 0x41 |>.setReg .l 0x3E)).map
        (fun t => (t.pc, t.cycles)) = some (0x413E, 5) := by decide

/-! ### Increment and decrement -/

/-- V81. -/
theorem test_inr_keeps_cy :
    (after (boot 0x0000 [0x3C] |>.setReg .a 0xFF |>.setCarry true)).map
        (fun t => (t.reg .a, t.status)) = some (0x00, 0x57) := by decide

/-- V84. -/
theorem test_inr_m :
    (after (boot 0x0000 [0x34] |>.setReg .h 0x20 |>.setReg .l 0x00 |>.hostWrite 0x2000 0x99)).map
        (fun t => (t.cell 0x2000, t.cycles)) = some (0x9A, 10) := by decide

/-- V85. -/
theorem test_dcr :
    (after (boot 0x0000 [0x3D] |>.setReg .a 0x00)).map
        (fun t => (t.reg .a, t.status)) = some (0xFF, 0x86) := by decide

/-- V89. -/
theorem test_dcr_m :
    (after (boot 0x0000 [0x35] |>.setReg .h 0x20 |>.setReg .l 0x00 |>.hostWrite 0x2000 0x01)).map
        (fun t => (t.cell 0x2000, t.status)) = some (0x00, 0x56) := by decide

/-- V90. -/
theorem test_inx_keeps_flags :
    (after (boot 0x0000 [0x23] |>.setReg .h 0xFF |>.setReg .l 0xFF |> withStatus 0xD7)).map
        (fun t => (t.reg .h, t.status)) = some (0x00, 0xD7) := by decide

/-- V95. -/
theorem test_dcx_sp :
    (after (boot 0x0000 [0x3B] |>.setSp 0x0000)).map
        (fun t => (t.sp, t.cycles)) = some (0xFFFF, 5) := by decide

/-! ### Arithmetic -/

/-- V100. -/
theorem test_add :
    (after (boot 0x0000 [0x80] |>.setReg .a 0x3A |>.setReg .b 0xC6)).map
        (fun t => (t.reg .a, t.status)) = some (0x00, 0x57) := by decide

/-- V103. -/
theorem test_add_m :
    (after (boot 0x0000 [0x86] |>.setReg .a 0x01 |>.setReg .h 0x20 |>.setReg .l 0x00
       |>.hostWrite 0x2000 0x7F)).map
        (fun t => (t.reg .a, t.cycles)) = some (0x80, 7) := by decide

/-- V105. -/
theorem test_adc :
    (after (boot 0x0000 [0x88] |>.setReg .a 0xFF |>.setReg .b 0x00 |>.setCarry true)).map
        (fun t => (t.reg .a, t.status)) = some (0x00, 0x57) := by decide

/-- V108. -/
theorem test_sub_borrow :
    (after (boot 0x0000 [0x90] |>.setReg .a 0x00 |>.setReg .b 0x01)).map
        (fun t => (t.reg .a, t.status)) = some (0xFF, 0x87) := by decide

/-- V109. -/
theorem test_sub_nibble :
    (after (boot 0x0000 [0x91] |>.setReg .a 0x50 |>.setReg .c 0x01)).map
        (fun t => (t.reg .a, t.status)) = some (0x4F, 0x02) := by decide

/-- V110. -/
theorem test_sbb :
    (after (boot 0x0000 [0x9D] |>.setReg .a 0x04 |>.setReg .l 0x02 |>.setCarry true)).map
        (fun t => (t.reg .a, t.status)) = some (0x01, 0x12) := by decide

/-- V112. -/
theorem test_adi :
    (after (boot 0x0000 [0xC6, 0x42] |>.setReg .a 0x14)).map
        (fun t => (t.reg .a, t.status)) = some (0x56, 0x06) := by decide

/-- V113. -/
theorem test_aci :
    (after (boot 0x0000 [0xCE, 0x42] |>.setReg .a 0x14 |>.setCarry true)).map
        (fun t => (t.reg .a, t.status)) = some (0x57, 0x02) := by decide

/-- V114. -/
theorem test_sui :
    (after (boot 0x0000 [0xD6, 0x01] |>.setReg .a 0x00)).map
        (fun t => (t.reg .a, t.status)) = some (0xFF, 0x87) := by decide

/-- V115. -/
theorem test_sbi :
    (after (boot 0x0000 [0xDE, 0x01] |>.setReg .a 0x00 |>.setCarry true)).map
        (fun t => (t.reg .a, t.status)) = some (0xFE, 0x83) := by decide

/-- V117. -/
theorem test_dad :
    (after (boot 0x0000 [0x29] |>.setReg .h 0x80 |>.setReg .l 0x00 |> withStatus 0xD6)).map
        (fun t => (t.reg .h, t.status)) = some (0x00, 0xD7) := by decide

/-- V119. -/
theorem test_dad_wraps :
    (after (boot 0x0000 [0x19] |>.setReg .d 0x00 |>.setReg .e 0x01 |>.setReg .h 0xFF
       |>.setReg .l 0xFF |>.setCarry false)).map
        (fun t => (t.reg .l, t.status)) = some (0x00, 0x03) := by decide

/-! ### Logic and compare -/

/-- V130. -/
theorem test_ana :
    (after (boot 0x0000 [0xA0] |>.setReg .a 0xFC |>.setReg .b 0x0F |>.setCarry true)).map
        (fun t => (t.reg .a, t.status)) = some (0x0C, 0x16) := by decide

/-- V131. -/
theorem test_ana_aux_clear :
    (after (boot 0x0000 [0xA1] |>.setReg .a 0xF0 |>.setReg .c 0x07)).map
        (fun t => (t.reg .a, t.status)) = some (0x00, 0x46) := by decide

/-- V133. -/
theorem test_xra :
    (after (boot 0x0000 [0xAF] |>.setReg .a 0x5A |> withStatus 0x93)).map
        (fun t => (t.reg .a, t.status)) = some (0x00, 0x46) := by decide

/-- V135. -/
theorem test_ora :
    (after (boot 0x0000 [0xB0] |>.setReg .a 0x33 |>.setReg .b 0x0F |> withStatus 0x13)).map
        (fun t => (t.reg .a, t.status)) = some (0x3F, 0x06) := by decide

/-- V139. -/
theorem test_cmp_less :
    (after (boot 0x0000 [0xB8] |>.setReg .a 0x02 |>.setReg .b 0x05)).map
        (fun t => (t.pc, t.status)) = some (0x0001, 0x83) := by decide

/-- V140. -/
theorem test_cmp_m :
    (after (boot 0x0000 [0xBE] |>.setReg .a 0x80 |>.setReg .h 0x20 |>.setReg .l 0x00
       |>.hostWrite 0x2000 0x80)).map
        (fun t => (t.status, t.cycles)) = some (0x56, 7) := by decide

/-- V141. -/
theorem test_ani :
    (after (boot 0x0000 [0xE6, 0x0F] |>.setReg .a 0x3A)).map
        (fun t => (t.reg .a, t.status)) = some (0x0A, 0x16) := by decide

/-- V142. -/
theorem test_xri :
    (after (boot 0x0000 [0xEE, 0x81] |>.setReg .a 0x3B)).map
        (fun t => (t.reg .a, t.status)) = some (0xBA, 0x82) := by decide

/-- V143. -/
theorem test_ori :
    (after (boot 0x0000 [0xF6, 0x0F] |>.setReg .a 0xB5)).map
        (fun t => (t.reg .a, t.status)) = some (0xBF, 0x82) := by decide

/-- V145. -/
theorem test_cpi :
    (after (boot 0x0000 [0xFE, 0x4B] |>.setReg .a 0x4A)).map
        (fun t => (t.pc, t.status)) = some (0x0002, 0x87) := by decide

/-! ### Rotate -/

/-- V160. -/
theorem test_rlc :
    (after (boot 0x0000 [0x07] |>.setReg .a 0xF2)).map
        (fun t => (t.reg .a, t.status)) = some (0xE5, 0x03) := by decide

/-- V163. -/
theorem test_rrc :
    (after (boot 0x0000 [0x0F] |>.setReg .a 0x01)).map
        (fun t => (t.reg .a, t.status)) = some (0x80, 0x03) := by decide

/-- V165. -/
theorem test_ral_old_carry :
    (after (boot 0x0000 [0x17] |>.setReg .a 0x00 |>.setCarry true)).map
        (fun t => (t.reg .a, t.status)) = some (0x01, 0x02) := by decide

/-- V166. -/
theorem test_rar_old_carry :
    (after (boot 0x0000 [0x1F] |>.setReg .a 0x6A |>.setCarry true)).map
        (fun t => (t.reg .a, t.status)) = some (0xB5, 0x02) := by decide

/-! ### Special -/

/-- V175. -/
theorem test_cma :
    (after (boot 0x0000 [0x2F] |>.setReg .a 0x51 |> withStatus 0xD7)).map
        (fun t => (t.reg .a, t.status)) = some (0xAE, 0xD7) := by decide

/-- V177. -/
theorem test_stc :
    (after (boot 0x0000 [0x37] |>.setCarry true)).map
        (fun t => (t.status, t.pc)) = some (0x03, 0x0001) := by decide

/-- V179. -/
theorem test_cmc :
    (after (boot 0x0000 [0x3F] |> withStatus 0x13)).map
        (fun t => (t.status, t.pc)) = some (0x12, 0x0001) := by decide

/-- V180. -/
theorem test_daa :
    (after (boot 0x0000 [0x27] |>.setReg .a 0x9B)).map
        (fun t => (t.reg .a, t.status)) = some (0x01, 0x13) := by decide

/-- V186. -/
theorem test_daa_carry_of_step_one :
    (after (boot 0x0000 [0x27] |>.setReg .a 0x9A)).map
        (fun t => (t.reg .a, t.status)) = some (0x00, 0x57) := by decide

/-! ### Control -/

/-- V210. -/
theorem test_ei :
    (after (boot 0x0000 [0xFB])).map
        (fun t => (t.inte, t.pc)) = some (true, 0x0001) := by decide

/-- V211. -/
theorem test_di :
    (after (boot 0x0000 [0xF3] |>.setInte true)).map
        (fun t => (t.inte, t.pc)) = some (false, 0x0001) := by decide

/-- V212. -/
theorem test_nop :
    (after (boot 0x0000 [0x00] |>.setReg .a 0x12 |>.setCarry true)).map
        (fun t => (t.status, t.pc)) = some (0x03, 0x0001) := by decide

/-- V216. -/
theorem test_nopDup :
    (after (boot 0x0000 [0x08] |>.setReg .a 0x12 |>.setCarry true)).map
        (fun t => (t.status, t.cycles)) = some (0x03, 4) := by decide

/-- V214. -/
theorem test_hlt :
    (after (boot 0xFFFF [0x76])).map
        (fun t => (t.halted, t.pc)) = some (true, 0x0000) := by decide

/-! ### The other value of each parameter -/

/-- V231. -/
theorem test_sub_borrow_mode :
    (after (bootBorrow 0x0000 [0x90] |>.setReg .a 0x00 |>.setReg .b 0x01)).map
        (fun t => (t.reg .a, t.status)) = some (0xFF, 0x97) := by decide

/-- V236. -/
theorem test_cmp_borrow_mode :
    (after (bootBorrow 0x0000 [0xFE, 0x4B] |>.setReg .a 0x4A)).map
        (fun t => (t.pc, t.status)) = some (0x0002, 0x97) := by decide

/-- V238. -/
theorem test_dcr_borrow_mode :
    (after (bootBorrow 0x0000 [0x15] |>.setReg .d 0x01)).map
        (fun t => (t.reg .d, t.status)) = some (0x00, 0x46) := by decide

/-- V245. -/
theorem test_push_low_at_sp :
    (after (bootLow 0x0000 [0xC5] |>.setReg .b 0x12 |>.setReg .c 0x34 |>.setSp 0x2400)).map
        (fun t => (t.cell 0x23FE, t.cell 0x23FF)) = some (0x34, 0x12) := by decide

/-- V251. -/
theorem test_xthl_low_at_sp :
    (after (bootLow 0x0000 [0xE3] |>.setReg .h 0x0B |>.setReg .l 0x3C |>.setSp 0x10AD
       |>.hostWrite 0x10AD 0xF0 |>.hostWrite 0x10AE 0x0D)).map
        (fun t => (t.reg .h, t.cell 0x10AD)) = some (0x0D, 0x3C) := by decide

/-- V249. -/
theorem test_call_low_at_sp :
    (after (bootLow 0x0100 [0xCD, 0x00, 0x20] |>.setSp 0x2400)).map
        (fun t => (t.cell 0x23FE, t.cell 0x23FF)) = some (0x03, 0x01) := by decide

/-- V250. -/
theorem test_ret_low_at_sp :
    (after (bootLow 0x2000 [0xC9] |>.setSp 0x23FE |>.hostWrite 0x23FE 0x03
       |>.hostWrite 0x23FF 0x01)).map
        (fun t => (t.pc, t.sp)) = some (0x0103, 0x2400) := by decide

/-! ### The eight conditions (R95, R151, R153, R155), each with its flag set and clear -/

/-- The status byte with which each condition holds, then one with which it does not. -/
def conditionFlags : List (Cond × Byte × Byte) :=
  [(.nz, 0x02, 0x42), (.z, 0x42, 0x02), (.nc, 0x02, 0x03), (.c, 0x03, 0x02), (.po, 0x02, 0x06),
   (.pe, 0x06, 0x02), (.p, 0x02, 0x82), (.m, 0x82, 0x02)]

/-- `pc` and the cycles charged after a step of an instruction at 0x0100, with `sp` at 0x2400 and the word
0x0103 there. -/
def transfers (i : Instr) (f : Byte) : Option (Word × BitVec 64 × Word) :=
  (after (withStatus f (((boot 0x0100 (encode i)).setSp 0x2400).hostLoad 0x2400 [0x01, 0x03]))).map
    fun t => (t.pc, t.cycles, t.sp)

theorem test_conditional_jumps : (conditionFlags.all fun row =>
    transfers (row.1.jumpInstr 0x2000) row.2.1 == some (0x2000, 10, 0x2400) &&
      transfers (row.1.jumpInstr 0x2000) row.2.2 == some (0x0103, 10, 0x2400)) = true := by decide

theorem test_conditional_calls : (conditionFlags.all fun row =>
    transfers (row.1.callInstr 0x2000) row.2.1 == some (0x2000, 17, 0x23FE) &&
      transfers (row.1.callInstr 0x2000) row.2.2 == some (0x0103, 11, 0x2400)) = true := by decide

theorem test_conditional_returns : (conditionFlags.all fun row =>
    transfers row.1.retInstr row.2.1 == some (0x0103, 11, 0x2402) &&
      transfers row.1.retInstr row.2.2 == some (0x0101, 5, 0x2400)) = true := by decide

/-! ### Input and output -/

/-- V200: port 0x10 reads 0x5C. -/
theorem test_in :
    (after (withStatus 0xD7 { boot 0 [0xDB, 0x10] with
      ioMap := { rest := .absent, ports := [(0x10, .fixed 0x5C)] } })).map
        (fun t => (t.reg .a, t.status)) = some (0x5C, 0xD7) := by decide

/-- V201: the null device reads 0x00. -/
theorem test_in_absent :
    (after ((boot 0 [0xDB, 0xFF]).setReg .a 0x77)).map (fun t => (t.reg .a, t.cycles)) =
      some (0x00, 10) := by decide

/-- V202. -/
theorem test_out :
    (after ({ boot 0 [0xD3, 0x01] with ioMap := { rest := .fixed 0, ports := [] } }.setReg .a 0xA5)).map
      (fun t => (t.ioOut, t.pc)) = some ([(0x01, 0xA5)], 0x0002) := by decide

/-! ### The step -/

/-- V215: while halted a step does nothing. -/
theorem test_halted_step :
    (after ((boot 1 [0x3C]).setHalted true)).map (fun t => (t.reg .a, t.pc, t.cycles)) =
      some (0, 1, 0) := by decide

/-- A write into ROM is ignored, a write into RAM is not (R63, U14). -/
theorem test_store_rom :
    (after (({ boot 0 [0x32, 0x00, 0x10] with
      memMap := { rest := .ram, regions := [⟨0x1000, 0x1FFF, .rom⟩] } }).setReg .a 0x55)).map
        (fun t => t.cell 0x1000) = some 0x00 ∧
    (after (({ boot 0 [0x32, 0x00, 0x20] with
      memMap := { rest := .ram, regions := [⟨0x1000, 0x1FFF, .rom⟩] } }).setReg .a 0x55)).map
        (fun t => t.cell 0x2000) = some 0x55 := by decide

/-- The bus transactions of `CALL` in their order: three fetches, the high byte, the low byte (R70, R73). -/
theorem test_bus_order :
    (after ((boot 0x0100 [0xCD, 0x00, 0x20]).setSp 0x2400)).map (fun t => t.out.bus) =
      some [.memRead 0x0100 0xCD, .memRead 0x0101 0x00, .memRead 0x0102 0x20,
        .memWrite 0x23FE 0x01, .memWrite 0x23FF 0x03] := by decide

/-- From `State.reset`, a word of the opcode table placed where the next step fetches runs (log 12). -/
theorem test_withFetchWord :
    (after (State.reset.withFetchWord 16 0x3CC6)).map (fun t => (t.reg .a, t.pc)) =
      some (0x3C, 0x0002) := by decide

/-- The opcodes of each length, and the sum of the default cycle counts (R106, R108). -/
theorem test_opcode_counts :
    ((List.range 256).map fun n => opLength (BitVec.ofNat 8 n)).sum = 208 + 18 * 2 + 30 * 3 ∧
      ((List.range 256).map fun n => defaultCycles (BitVec.ofNat 8 n)).sum = 1653 := by
  set_option maxRecDepth 8000 in decide

/-! ## Runs -/

/-- JMP 0x0000 at 0x0000: a condition that holds at the start ends the run there, one that asks for a step
more ends it after that step, and a halted core makes none (R305). -/
theorem test_runUntil_looks_at_start :
    let s := boot 0 [0xC3, 0x00, 0x00]
    let cyclesAfter (o : Result) : Option (BitVec 64) :=
      match o with
      | .next t => some t.cycles
      | .fault _ => none
      | .refused _ => none
    cyclesAfter (runUntil (fun _ t => t.pc == 0) 2 s) = some 0 ∧
    cyclesAfter (runUntil (fun n t => 0 < n && t.pc == 0) 2 s) = some 10 ∧
    cyclesAfter (runUntil (fun _ _ => false) 2 s) = some 20 ∧
    cyclesAfter (runUntil (fun _ _ => false) 2 (s.setHalted true)) = some 0 := by decide

/-! ## Witnesses: for every statement with hypotheses, states that meet them -/

/-- The state an operation ends in. -/
def finish (o : Host.Outcome State Fault Refusal) : State :=
  match o with
  | .next t => t
  | .fault _ => State.reset
  | .refused _ => State.reset

/-- An operation ends in its final state. -/
theorem exec_finish (i : Instr) (s : State) : exec i s = .next (finish (exec i s)) := by
  cases i <;> rfl

/-- RAM everywhere, `sp` at 0: a push goes to the end of the address space. -/
def pushState (hi : Bool) : State :=
  { boot 0 [] with
    cfg := { Config.default with stackHiAtSp := hi }
    regs := { b := 0x12, c := 0x34, d := 0, e := 0, h := 0xAA, l := 0xBB, a := 0x99 } }

theorem witness_DecodeOfEncode : (Instr.callDup 3 0xFFFF).wf = true ∧ (Instr.nopDup 7).wf = true ∧
    (Instr.lxi .sp 0x1234).wf = true := by decide

theorem witness_EncodeOfDecode :
    decode [0xCD, 0x34, 0x12, 0x00] = .ok (.call 0x1234, [0x00]) := by rfl

theorem witness_OpcodeTableIsTotal : Config.default.wf = true ∧
    ({ Config.default with cycles := [(0x00, 1)] } : Config).wf = true := by decide

theorem witness_StepRunsDecodedInstruction :
    let s := boot 0xFFFF [0xC3, 0x50, 0x01]
    s.halted = false ∧
      decode [s.answer 0 s.pc, s.answer 1 (s.pc + 1#16), s.answer 2 (s.pc + 2#16)] =
        .ok (.jmp 0x0150, []) := by
  constructor <;> rfl

theorem witness_HaltedStep : ((boot 0 [0x3C]).setHalted true).halted = true := by decide

theorem witness_StepKeepsInvariant : (boot 0 [0x32, 0x00, 0x10]).Inv ∧
    ∃ t, step (boot 0 [0x32, 0x00, 0x10]) = .next t :=
  ⟨⟨by decide, by decide⟩, _, rfl⟩

theorem witness_FlagsWrittenAsTable : (∃ t, exec (.inrR .a) (boot 0 []) = .next t) ∧
    Piece.cy ∈ allFlags ∧ Piece.cy ∉ (Instr.inrR .a).flagsWritten ∧
    Piece.s ∉ (Instr.dad .hl).flagsWritten := ⟨⟨_, rfl⟩, by decide⟩

/-- One instruction for each branch: EI, DI, HLT, another. -/
theorem witness_InteAndHaltedWriters : ∀ i ∈ [Instr.ei, .di, .hlt, .nop],
    ∃ t, exec i ((boot 0 []).setInte true) = .next t :=
  fun i _ => ⟨_, exec_finish i _⟩

theorem witness_InteAndCyclesUnseen :
    AgreeButCyclesInte (boot 0 [0xFB]) { boot 0 [0xFB] with cycles := 5, inte := true } ∧
      ∃ t, step (boot 0 [0xFB]) = .next t := ⟨⟨rfl⟩, _, rfl⟩

/-- A store into RAM, and an address that is not RAM. -/
theorem witness_StepStoresOnlyInRam :
    let s := { boot 0 [0x32, 0x00, 0x20] with
      memMap := { rest := .ram, regions := [⟨0x1000, 0x1FFF, .rom⟩] } }
    (∃ t, step s = .next t) ∧ s.memMap.kindAt 0x1000 ≠ .ram ∧ s.memMap.kindAt 0x1FFF ≠ .ram ∧
      s.memMap.kindAt 0x2000 = .ram := ⟨⟨_, rfl⟩, by decide⟩

/-- A conditional call, once with its condition holding and once not. -/
theorem witness_BusTransactions_and_CycleCounter :
    (∀ f ∈ [0x02, 0x42], (withStatus f (boot 0 [0xCC, 0x00, 0x20])).halted = false ∧
      ∃ t, step (withStatus f (boot 0 [0xCC, 0x00, 0x20])) = .next t) ∧
    (Instr.cz 0x2000).taken (Flags.ofStatusByte 0x42) = true ∧
    (Instr.cz 0x2000).taken (Flags.ofStatusByte 0x02) = false := by
  refine ⟨fun f hf => ?_, by decide⟩
  simp only [List.mem_cons, List.not_mem_nil, or_false] at hf
  rcases hf with rfl | rfl <;> exact ⟨rfl, _, rfl⟩

/-- Either byte order, with a stack slot at the end of the address space. -/
theorem witness_PushThenPop_and_CallThenRet : ∀ hi : Bool,
    (pushState hi).mem.wf = true ∧
    (pushState hi).memMap.kindAt ((pushState hi).sp - 2#16) = .ram ∧
    (pushState hi).memMap.kindAt ((pushState hi).sp - 2#16 + 1#16) = .ram ∧
    (∃ t u, exec (.push .bc) (pushState hi) = .next t ∧ exec (.pop .de) t = .next u) ∧
    (∃ t u, exec .pushPsw (pushState hi) = .next t ∧ exec .popPsw t = .next u) ∧
    ∃ t u, exec (.call 0x2000) (pushState hi) = .next t ∧ exec .ret t = .next u := by
  intro hi
  refine ⟨rfl, rfl, rfl, ⟨_, _, exec_finish _ _, exec_finish _ _⟩, ⟨_, _, exec_finish _ _, exec_finish _ _⟩,
    ⟨_, _, exec_finish _ _, exec_finish _ _⟩⟩

theorem witness_XthlIsPopThenPush : (pushState true).mem.wf = true ∧
    ∃ t u v, exec .xthl (pushState true) = .next t ∧ exec (.pop .de) (pushState true) = .next u ∧
      exec (.push .hl) u = .next v :=
  ⟨rfl, _, _, _, exec_finish _ _, exec_finish _ _, exec_finish _ _⟩

/-- Each of the five pairs of instructions. -/
theorem witness_InversePairs : ∀ p ∈ [(Instr.ral, Instr.rar), (.rar, .ral), (.xchg, .xchg),
    (.cma, .cma), (.cmc, .cmc)], ∃ t u, exec p.1 (pushState true) = .next t ∧ exec p.2 t = .next u :=
  fun _ _ => ⟨_, _, exec_finish _ _, exec_finish _ _⟩

/-- Each form of instruction the statement names, in both modes. -/
theorem witness_SubAuxModes : ∀ i ∈ [Instr.sub .m, .sbb (.reg .b), .cmp (.reg .a), .sui 0x01, .sbi 0xFF,
    .cpi 0x00, .dcrR .h, .dcrM],
    ((∃ src, i = .sub src ∨ i = .sbb src ∨ i = .cmp src) ∨
      (∃ v, i = .sui v ∨ i = .sbi v ∨ i = .cpi v) ∨ (∃ r, i = .dcrR r) ∨ i = .dcrM) ∧
    ∀ mode, ∃ t, exec i { pushState true with
      cfg := { (pushState true).cfg with subAuxMode := mode } } = .next t := by
  intro i hi
  refine ⟨?_, fun mode => ⟨_, exec_finish _ _⟩⟩
  simp only [List.mem_cons, List.not_mem_nil, or_false] at hi
  rcases hi with rfl | rfl | rfl | rfl | rfl | rfl | rfl | rfl <;> simp

/-- The greatest numbers, whose sum passes 100. -/
theorem witness_DaaAfterAci : (pushState true).reg .a = packedBcd 99 ∧
    ∃ t u, exec (.aci (packedBcd 99)) (pushState true) = .next t ∧ exec .daa t = .next u :=
  ⟨rfl, _, _, exec_finish _ _, exec_finish _ _⟩

/-- `Stored`: an address in RAM and one that is not, for a memory in canonical form. -/
theorem witness_Stored : (boot 0 []).mem.wf = true ∧ (boot 0 []).memMap.kindAt 0xFFFF = .ram ∧
    State.reset.memMap.kindAt 0xFFFF ≠ .ram := by decide

/-- Each condition holds for some flags and does not for others. -/
theorem witness_conditions : ∀ cond, ∃ f g : Flags, f.holds cond = true ∧ g.holds cond = false := by
  intro cond
  cases cond <;>
    first
      | exact ⟨Flags.ofStatusByte 0x00, Flags.ofStatusByte 0xFF, rfl, rfl⟩
      | exact ⟨Flags.ofStatusByte 0xFF, Flags.ofStatusByte 0x00, rfl, rfl⟩

theorem witness_RetPopsPc : ∀ i ∈ [Instr.ret, .retDup], i = .ret ∨ i = .retDup := by decide

/-- Each constructor of a sum or difference meets the hypothesis with the carry or borrow it takes. -/
theorem witness_Additions_and_Subtractions :
    let s := pushState true
    (∀ p ∈ [(Instr.add, false), (Instr.adc, s.flags.cy)],
      (p.1 = .add ∧ p.2 = false) ∨ (p.1 = .adc ∧ p.2 = s.flags.cy)) ∧
    (∀ p ∈ [(Instr.adi, false), (Instr.aci, s.flags.cy)],
      (p.1 = .adi ∧ p.2 = false) ∨ (p.1 = .aci ∧ p.2 = s.flags.cy)) ∧
    (∀ p ∈ [(Instr.sub, false), (Instr.sbb, s.flags.cy)],
      (p.1 = .sub ∧ p.2 = false) ∨ (p.1 = .sbb ∧ p.2 = s.flags.cy)) ∧
    (∀ p ∈ [(Instr.sui, false), (Instr.sbi, s.flags.cy)],
      (p.1 = .sui ∧ p.2 = false) ∨ (p.1 = .sbi ∧ p.2 = s.flags.cy)) := by simp

/-- Each constructor of an exclusive or or an or meets the hypothesis with its function. -/
theorem witness_XorAndOr :
    (∀ p ∈ [(Instr.xra, fun a b : Byte => a ^^^ b), (Instr.ora, fun a b : Byte => a ||| b)],
      (p.1 = .xra ∧ p.2 = fun a b => a ^^^ b) ∨ (p.1 = .ora ∧ p.2 = fun a b => a ||| b)) ∧
    (∀ p ∈ [(Instr.xri, fun a b : Byte => a ^^^ b), (Instr.ori, fun a b : Byte => a ||| b)],
      (p.1 = .xri ∧ p.2 = fun a b => a ^^^ b) ∨ (p.1 = .ori ∧ p.2 = fun a b => a ||| b)) := by simp

/-- RAR of 0x01 with CY set: the value 0x80 and the carry out. -/
theorem witness_Rotates :
    let s := (boot 0 []).setReg .a 0x01 |>.setCarry true
    Instr.rar = .rar ∧ 0x80 = (s.reg .a).toNat / 2 + bitNat s.flags.cy * 128 ∧
      true = decide ((s.reg .a).toNat % 2 = 1) := by decide

theorem witness_InReadsPort : State.reset.ioMap.kindAt 0xFF = .absent := by decide

end Sys2Proof.Tests
end

section
/-! SUPPORT. Nothing reads the cycle counter or the interrupt-enable state: every operation commutes with
putting the counter ahead and replacing `inte`. -/

namespace Sys2Proof.Machine

/-- The state with the cycle counter `d` ahead and the interrupt-enable state `b`. -/
def State.shift (s : State) (d : BitVec 64) (b : Bool) : State :=
  { s with cycles := s.cycles + d, inte := b }

section

variable (s : State) (d : BitVec 64) (b : Bool)

/-! ### What is read of a shifted state -/

@[simp] theorem State.shift_cfg : (s.shift d b).cfg = s.cfg := rfl
@[simp] theorem State.shift_flags : (s.shift d b).flags = s.flags := rfl
@[simp] theorem State.shift_sp : (s.shift d b).sp = s.sp := rfl
@[simp] theorem State.shift_halted : (s.shift d b).halted = s.halted := rfl
@[simp] theorem State.shift_reg (r : Reg) : (s.shift d b).reg r = s.reg r := rfl
@[simp] theorem State.shift_pair (p : Pair) : (s.shift d b).pair p = s.pair p := rfl
@[simp] theorem State.shift_hl : (s.shift d b).hl = s.hl := rfl
@[simp] theorem State.shift_rp16 (r : Rp) : (s.shift d b).rp16 r = s.rp16 r := by cases r <;> rfl
@[simp] theorem State.shift_indAddr (p : IndPair) : (s.shift d b).indAddr p = s.indAddr p := by
  cases p <;> rfl
@[simp] theorem State.shift_psw : (s.shift d b).psw = s.psw := rfl
@[simp] theorem State.shift_nextPc (i : Instr) : (s.shift d b).nextPc i = s.nextPc i := rfl

/-! ### What is done to a shifted state -/

@[simp] theorem State.shift_setReg (r : Reg) (v : Byte) :
    (s.shift d b).setReg r v = (s.setReg r v).shift d b := rfl
@[simp] theorem State.shift_setPair (p : Pair) (w : Word) :
    (s.shift d b).setPair p w = (s.setPair p w).shift d b := rfl
@[simp] theorem State.shift_setSp (w : Word) : (s.shift d b).setSp w = (s.setSp w).shift d b := rfl
@[simp] theorem State.shift_setRp16 (r : Rp) (w : Word) :
    (s.shift d b).setRp16 r w = (s.setRp16 r w).shift d b := by cases r <;> rfl
@[simp] theorem State.shift_setFlags (f : Flags) :
    (s.shift d b).setFlags f = (s.setFlags f).shift d b := rfl
@[simp] theorem State.shift_setCarry (c : Bool) :
    (s.shift d b).setCarry c = (s.setCarry c).shift d b := rfl
@[simp] theorem State.shift_setHalted (c : Bool) :
    (s.shift d b).setHalted c = (s.setHalted c).shift d b := rfl
@[simp] theorem State.shift_setPsw (w : Word) :
    (s.shift d b).setPsw w = (s.setPsw w).shift d b := rfl
/-- A write of `inte` overwrites whatever was there. -/
@[simp] theorem State.shift_setInte (c : Bool) :
    (s.shift d b).setInte c = (s.setInte c).shift d c := rfl

@[simp] theorem State.shift_memRead (a : Word) :
    (s.shift d b).memRead a = ((s.memRead a).1, (s.memRead a).2.shift d b) := rfl
@[simp] theorem State.shift_memWrite (a : Word) (v : Byte) :
    (s.shift d b).memWrite a v = (s.memWrite a v).shift d b := by
  have hstore : (s.shift d b).store a v = (s.store a v).shift d b := by
    cases h : s.memMap.kindAt a <;> simp only [State.store, State.shift, h]
  simp only [State.memWrite, hstore]
  rfl
@[simp] theorem State.shift_memRead16 (a : Word) :
    (s.shift d b).memRead16 a = ((s.memRead16 a).1, (s.memRead16 a).2.shift d b) := rfl
@[simp] theorem State.shift_memWrite16 (a w : Word) :
    (s.shift d b).memWrite16 a w = (s.memWrite16 a w).shift d b := by simp [State.memWrite16]
@[simp] theorem State.shift_ioRead (p : Byte) :
    (s.shift d b).ioRead p = ((s.ioRead p).1, (s.ioRead p).2.shift d b) := rfl
@[simp] theorem State.shift_ioWrite (p v : Byte) :
    (s.shift d b).ioWrite p v = (s.ioWrite p v).shift d b := by
  have hstore : (s.shift d b).portStore p v = (s.portStore p v).shift d b := by
    cases h : s.ioMap.kindAt p <;> simp only [State.portStore, State.shift, h]
  simp only [State.ioWrite, hstore]
  rfl
@[simp] theorem State.shift_push16 (w : Word) : (s.shift d b).push16 w = (s.push16 w).shift d b := by
  by_cases h : s.cfg.stackHiAtSp <;> simp [State.push16, h]
@[simp] theorem State.shift_readTop :
    (s.shift d b).readTop = (s.readTop.1, s.readTop.2.shift d b) := rfl
@[simp] theorem State.shift_writeTop (w : Word) :
    (s.shift d b).writeTop w = (s.writeTop w).shift d b := by
  by_cases h : s.cfg.stackHiAtSp <;> simp [State.writeTop, h]
@[simp] theorem State.shift_pop16 :
    (s.shift d b).pop16 = (s.pop16.1, s.pop16.2.shift d b) := rfl
@[simp] theorem State.shift_src8 (src : Operand8) :
    (s.shift d b).src8 src = ((s.src8 src).1, (s.src8 src).2.shift d b) := by cases src <;> rfl
@[simp] theorem State.shift_accumulate (f : Byte → Byte → Byte × Flags) (v : Byte) :
    (s.shift d b).accumulate f v = (s.accumulate f v).shift d b := rfl
@[simp] theorem State.shift_compare (v : Byte) :
    (s.shift d b).compare v = (s.compare v).shift d b := rfl
@[simp] theorem State.shift_rotate (op : RotateOp) :
    (s.shift d b).rotate op = (s.rotate op).shift d b := rfl

/-- The cycles an instruction charges come on top of whatever the counter holds. -/
@[simp] theorem State.shift_addCycles (n : Nat) :
    (s.shift d b).addCycles n = (s.addCycles n).shift d b := by
  simp only [State.addCycles, State.shift, add_right_comm]
@[simp] theorem State.shift_setPc (w : Word) : (s.shift d b).setPc w = (s.setPc w).shift d b := rfl
@[simp] theorem State.shift_advance (i : Instr) :
    (s.shift d b).advance i = (s.advance i).shift d b := by simp [State.advance]
@[simp] theorem State.shift_jump (i : Instr) (w : Word) :
    (s.shift d b).jump i w = (s.jump i w).shift d b := by simp [State.jump]
@[simp] theorem State.shift_jumpTaken (i : Instr) (w : Word) :
    (s.shift d b).jumpTaken i w = (s.jumpTaken i w).shift d b := by simp [State.jumpTaken]
@[simp] theorem State.shift_jumpIf (cond : Cond) (i : Instr) (a : Word) :
    (s.shift d b).jumpIf cond i a = (s.jumpIf cond i a).shift d b := by
  by_cases h : s.flags.holds cond <;> simp [State.jumpIf, h]
@[simp] theorem State.shift_callTo (i : Instr) (a : Word) :
    (s.shift d b).callTo i a = (s.callTo i a).shift d b := by simp [State.callTo]
@[simp] theorem State.shift_callIf (cond : Cond) (i : Instr) (a : Word) :
    (s.shift d b).callIf cond i a = (s.callIf cond i a).shift d b := by
  by_cases h : s.flags.holds cond <;> simp [State.callIf, h]
@[simp] theorem State.shift_returnFrom (i : Instr) :
    (s.shift d b).returnFrom i = (s.returnFrom i).shift d b := by simp [State.returnFrom]
@[simp] theorem State.shift_returnIf (cond : Cond) (i : Instr) :
    (s.shift d b).returnIf cond i = (s.returnIf cond i).shift d b := by
  by_cases h : s.flags.holds cond <;> simp [State.returnIf, h]

/-- The fetch reads the same bytes and hands on the shifted state. -/
theorem State.shift_fetch : (s.shift d b).fetch = (s.fetch.1, s.fetch.2.shift d b) := by
  have hi : (s.shift d b).fetch.1 = s.fetch.1 := by rw [fetch_instr, fetch_instr]; rfl
  refine Prod.ext hi ?_
  rw [fetch_state, fetch_state, hi]
  rfl

/-! ### Instructions and steps -/

variable {s} {t : State}

/-- An instruction run on a shifted state ends in the shifted final state; EI and DI alone set its `inte`. -/
theorem exec_shift {i : Instr} (h : exec i s = .next t) :
    ∃ b', exec i (s.shift d b) = .next (t.shift d b') := by
  cases i
  case ei => cases h; refine ⟨true, congrArg Host.Outcome.next ?_⟩; simp
  case di => cases h; refine ⟨false, congrArg Host.Outcome.next ?_⟩; simp
  all_goals (cases h; refine ⟨b, congrArg Host.Outcome.next ?_⟩; simp)

theorem step_shift (h : step s = .next t) : ∃ b', step (s.shift d b) = .next (t.shift d b') := by
  unfold step at h ⊢
  rw [State.shift_halted, State.shift_fetch]
  split at h
  next hh => cases h; exact ⟨b, if_pos hh⟩
  next hh => rw [if_neg hh]; exact exec_shift d b h

theorem agreeButCyclesInte_shift : AgreeButCyclesInte s (s.shift d b) := ⟨rfl⟩

theorem AgreeButCyclesInte.eq_shift {s' : State} (h : AgreeButCyclesInte s s') :
    ∃ d b, s' = s.shift d b := by
  refine ⟨s'.cycles - s.cycles, s'.inte, ?_⟩
  rw [State.shift, BitVec.add_comm, BitVec.sub_add_cancel]
  exact h.same

end

/-- Settles O15: states that agree but for the two differ by a shift, and every step commutes with it. -/
theorem inteAndCyclesUnseen : Obligations.InteAndCyclesUnseen := by
  intro s s' t hagree hstep
  obtain ⟨d, b, rfl⟩ := hagree.eq_shift
  obtain ⟨b', ht⟩ := step_shift d b hstep
  exact ⟨_, ht, agreeButCyclesInte_shift d b'⟩

end Sys2Proof.Machine
end

section
/-! SUPPORT. What an instruction writes: its row of the flag table (R38) and the pieces listed here. One lemma
per operation says which pieces it leaves as they were. -/

namespace Sys2Proof

open Machine

/-- The pieces an instruction writes beside the flags of its row of R38. -/
def Instr.otherPiecesWritten : Instr → List Piece
  | .movRR r _ | .movRM r | .mviR r _ | .inrR r | .dcrR r => [.reg r]
  | .lxi pr _ | .inx pr | .dcx pr => pr.pieces
  | .lda _ | .ldax _ | .rlc | .rrc | .ral | .rar | .cma | .daa | .inp _ => [.reg .a]
  | .add _ | .adc _ | .sub _ | .sbb _ | .ana _ | .xra _ | .ora _ => [.reg .a]
  | .adi _ | .aci _ | .sui _ | .sbi _ | .ani _ | .xri _ | .ori _ => [.reg .a]
  | .lhld _ | .xthl | .dad _ => Pair.hl.pieces
  | .xchg => Pair.hl.pieces ++ Pair.de.pieces
  | .push _ | .pushPsw | .call _ | .callDup _ _ | .rst _ | .ret | .retDup | .sphl => [.sp]
  | .cnz _ | .cz _ | .cnc _ | .cc _ | .cpo _ | .cpe _ | .cp _ | .cm _ => [.sp]
  | .rnz | .rz | .rnc | .rc | .rpo | .rpe | .rp | .rm => [.sp]
  | .pop p => .sp :: p.pieces
  | .popPsw => [.sp, .reg .a]
  | .out _ => [.ioOut]
  | .ei | .di => [.inte]
  | .hlt => [.halted]
  | .movMR _ | .mviM _ | .sta _ | .shld _ | .stax _ | .inrM | .dcrM => []
  | .jmp _ | .jmpDup _ | .jnz _ | .jz _ | .jnc _ | .jc _ | .jpo _ | .jpe _ | .jp _ | .jm _ | .pchl => []
  | .cmp _ | .cpi _ | .stc | .cmc | .nop | .nopDup _ => []

section

variable {x : Piece}

/-! ### Which pieces the instructions write -/

theorem Pair.mem_pieces {p : Pair} (h : x ∈ p.pieces) : ∃ r, x = .reg r := by
  cases p <;> simp only [Pair.pieces, List.mem_cons, List.not_mem_nil, or_false] at h <;>
    exact h.elim (⟨_, ·⟩) (⟨_, ·⟩)

theorem Rp.mem_pieces {r : Rp} (h : x ∈ r.pieces) : (∃ r, x = .reg r) ∨ x = .sp := by
  cases r
  case sp => exact .inr (List.mem_singleton.mp h)
  case bc => exact .inl (Pair.mem_pieces (p := .bc) h)
  case de => exact .inl (Pair.mem_pieces (p := .de) h)
  case hl => exact .inl (Pair.mem_pieces (p := .hl) h)

/-- Beside flags, an instruction writes registers, `sp` and the record of the I/O device; `inte` and `halted`
have their own instructions. -/
theorem Instr.otherPiecesWritten_cases {i : Instr} (h : x ∈ i.otherPiecesWritten) :
    (∃ r, x = .reg r) ∨ x = .sp ∨ x = .ioOut ∨ (x = .inte ∧ (i = .ei ∨ i = .di)) ∨
      (x = .halted ∧ i = .hlt) := by
  cases i
  all_goals
    simp only [Instr.otherPiecesWritten, List.mem_cons, List.mem_append, List.not_mem_nil, or_false] at h
  case lxi | inx | dcx => exact (Rp.mem_pieces h).imp_right .inl
  case lhld | xthl | dad => exact .inl (Pair.mem_pieces h)
  case xchg => exact .inl (h.elim Pair.mem_pieces Pair.mem_pieces)
  case pop => exact h.elim (fun e => .inr (.inl e)) fun e => .inl (Pair.mem_pieces e)
  case popPsw => exact h.elim (fun e => .inr (.inl e)) fun e => .inl ⟨_, e⟩
  all_goals simp [h]

/-- The table of R38 lists flags only. -/
theorem Instr.not_mem_flagsWritten {i : Instr} (h : x ∉ allFlags) : x ∉ i.flagsWritten := by
  have hsub : i.flagsWritten ⊆ allFlags := by cases i <;> simp [Instr.flagsWritten, allFlags]
  exact fun hmem => h (hsub hmem)

end

namespace Machine

section

variable {s t : State} {x : Piece}

@[simp] theorem Piece.same_refl : Piece.same s s x := by cases x <;> rfl

/-! ### Operations that write one kind of piece -/

@[simp] theorem Piece.same_setReg {r : Reg} (v : Byte) (h : x ≠ .reg r) :
    Piece.same s (t.setReg r v) x ↔ Piece.same s t x := by
  cases x <;> simp_all [Piece.same]

@[simp] theorem Piece.same_setPair {p : Pair} (w : Word) (h : x ∉ p.pieces) :
    Piece.same s (t.setPair p w) x ↔ Piece.same s t x := by
  cases p <;> simp_all [Pair.pieces, State.setPair, Pair.high, Pair.low]

@[simp] theorem Piece.same_setSp (w : Word) (h : x ≠ .sp) :
    Piece.same s (t.setSp w) x ↔ Piece.same s t x := by
  cases x <;> simp_all [Piece.same]

@[simp] theorem Piece.same_setRp16 {r : Rp} (w : Word) (h : x ∉ r.pieces) :
    Piece.same s (t.setRp16 r w) x ↔ Piece.same s t x := by
  cases r <;> simp_all [Rp.pieces, State.setRp16, Pair.pieces]

@[simp] theorem Piece.same_setFlags (f : Flags) (h : x ∉ allFlags) :
    Piece.same s (t.setFlags f) x ↔ Piece.same s t x := by
  cases x <;> simp_all [Piece.same, allFlags]

@[simp] theorem inc8_cy (v : Byte) (f : Flags) : (inc8 v f).2.cy = f.cy := by
  obtain ⟨-, -, -, hcy⟩ := inc8_spec v f
  exact hcy

@[simp] theorem dec8_cy (mode : SubAuxMode) (v : Byte) (f : Flags) : (dec8 mode v f).2.cy = f.cy := by
  obtain ⟨-, -, -, hcy⟩ := dec8_spec mode v f
  exact hcy

/-- Flags written with the old CY (R36). -/
theorem Piece.same_setFlags_of_cy {f : Flags} (hcy : f.cy = t.flags.cy) (h : x ∉ [.s, .z, .ac, .p]) :
    Piece.same s (t.setFlags f) x ↔ Piece.same s t x := by
  cases x <;> simp_all [Piece.same]

@[simp] theorem Piece.same_setCarry (c : Bool) (h : x ≠ .cy) :
    Piece.same s (t.setCarry c) x ↔ Piece.same s t x := by
  cases x <;> simp_all [Piece.same]

@[simp] theorem Piece.same_setInte (c : Bool) (h : x ≠ .inte) :
    Piece.same s (t.setInte c) x ↔ Piece.same s t x := by
  cases x <;> simp_all [Piece.same]

@[simp] theorem Piece.same_setHalted (c : Bool) (h : x ≠ .halted) :
    Piece.same s (t.setHalted c) x ↔ Piece.same s t x := by
  cases x <;> simp_all [Piece.same]

@[simp] theorem Piece.same_ioWrite (p v : Byte) (h : x ≠ .ioOut) :
    Piece.same s (t.ioWrite p v) x ↔ Piece.same s t x := by
  cases x <;> simp_all [Piece.same]

/-! ### Operations that write no piece -/

@[simp] theorem Piece.same_memRead (a : Word) :
    Piece.same s (t.memRead a).2 x ↔ Piece.same s t x := by
  cases x <;> rfl

@[simp] theorem Piece.same_memWrite (a : Word) (v : Byte) :
    Piece.same s (t.memWrite a v) x ↔ Piece.same s t x := by
  cases x <;> simp [Piece.same]

@[simp] theorem Piece.same_ioRead (p : Byte) : Piece.same s (t.ioRead p).2 x ↔ Piece.same s t x := by
  cases x <;> rfl

@[simp] theorem Piece.same_setPc (w : Word) : Piece.same s (t.setPc w) x ↔ Piece.same s t x := by
  cases x <;> rfl

@[simp] theorem Piece.same_addCycles (n : Nat) :
    Piece.same s (t.addCycles n) x ↔ Piece.same s t x := by
  cases x <;> rfl

/-! ### Shared shapes of operation -/

@[simp] theorem Piece.same_memRead16 (a : Word) :
    Piece.same s (t.memRead16 a).2 x ↔ Piece.same s t x := by simp [State.memRead16]

@[simp] theorem Piece.same_memWrite16 (a w : Word) :
    Piece.same s (t.memWrite16 a w) x ↔ Piece.same s t x := by simp [State.memWrite16]

@[simp] theorem Piece.same_src8 (src : Operand8) :
    Piece.same s (t.src8 src).2 x ↔ Piece.same s t x := by cases src <;> simp [State.src8]

@[simp] theorem Piece.same_readTop : Piece.same s t.readTop.2 x ↔ Piece.same s t x := by
  simp [State.readTop]

@[simp] theorem Piece.same_writeTop (w : Word) :
    Piece.same s (t.writeTop w) x ↔ Piece.same s t x := by
  unfold State.writeTop
  split <;> simp

@[simp] theorem Piece.same_push16 (w : Word) (h : x ≠ .sp) :
    Piece.same s (t.push16 w) x ↔ Piece.same s t x := by
  simp only [State.push16]
  split <;> simp [h]

@[simp] theorem Piece.same_pop16 (h : x ≠ .sp) : Piece.same s t.pop16.2 x ↔ Piece.same s t x := by
  simp [State.pop16, h]

@[simp] theorem Piece.same_setPsw (w : Word) (ha : x ≠ .reg .a) (hf : x ∉ allFlags) :
    Piece.same s (t.setPsw w) x ↔ Piece.same s t x := by simp [State.setPsw, ha, hf]

@[simp] theorem Piece.same_accumulate (f : Byte → Byte → Byte × Flags) (v : Byte) (ha : x ≠ .reg .a)
    (hf : x ∉ allFlags) : Piece.same s (t.accumulate f v) x ↔ Piece.same s t x := by
  simp [State.accumulate, ha, hf]

@[simp] theorem Piece.same_compare (v : Byte) (hf : x ∉ allFlags) :
    Piece.same s (t.compare v) x ↔ Piece.same s t x := by simp [State.compare, hf]

@[simp] theorem Piece.same_rotate (op : RotateOp) (ha : x ≠ .reg .a) (hc : x ≠ .cy) :
    Piece.same s (t.rotate op) x ↔ Piece.same s t x := by simp [State.rotate, ha, hc]

@[simp] theorem Piece.same_advance (i : Instr) :
    Piece.same s (t.advance i) x ↔ Piece.same s t x := by simp [State.advance]

@[simp] theorem Piece.same_jump (i : Instr) (w : Word) :
    Piece.same s (t.jump i w) x ↔ Piece.same s t x := by simp [State.jump]

@[simp] theorem Piece.same_jumpTaken (i : Instr) (w : Word) :
    Piece.same s (t.jumpTaken i w) x ↔ Piece.same s t x := by simp [State.jumpTaken]

@[simp] theorem Piece.same_jumpIf (cond : Cond) (i : Instr) (a : Word) :
    Piece.same s (t.jumpIf cond i a) x ↔ Piece.same s t x := by
  unfold State.jumpIf
  split <;> simp

@[simp] theorem Piece.same_callTo (i : Instr) (a : Word) (h : x ≠ .sp) :
    Piece.same s (t.callTo i a) x ↔ Piece.same s t x := by simp [State.callTo, h]

@[simp] theorem Piece.same_callIf (cond : Cond) (i : Instr) (a : Word) (h : x ≠ .sp) :
    Piece.same s (t.callIf cond i a) x ↔ Piece.same s t x := by
  unfold State.callIf
  split <;> simp [h]

@[simp] theorem Piece.same_returnFrom (i : Instr) (h : x ≠ .sp) :
    Piece.same s (t.returnFrom i) x ↔ Piece.same s t x := by simp [State.returnFrom, h]

@[simp] theorem Piece.same_returnIf (cond : Cond) (i : Instr) (h : x ≠ .sp) :
    Piece.same s (t.returnIf cond i) x ↔ Piece.same s t x := by
  unfold State.returnIf
  split <;> simp [h]

/-! ### Instructions -/

/-- The frame of every instruction: a piece neither of its row of R38 nor of the list above stays. INR and DCR
write four flags and the old CY; every other instruction writes all of its flags or CY alone. -/
theorem exec_same {i : Instr} (h : exec i s = .next t) (hf : x ∉ i.flagsWritten)
    (hp : x ∉ i.otherPiecesWritten) : Piece.same s t x := by
  cases i
  all_goals
    cases h
    simp only [Instr.flagsWritten, Instr.otherPiecesWritten, List.mem_cons, List.mem_append, not_or] at hf hp
  case inrR | inrM | dcrR | dcrM =>
    simp only [Piece.same_advance, Piece.same_memWrite, Piece.same_setReg, hp, ne_eq, not_false_eq_true]
    rw [Piece.same_setFlags_of_cy (by simp) (by simp [hf])]
    simp
  all_goals simp [hf, hp]

/-- What is no flag stays unless it is listed. -/
theorem exec_same_of_not_flag {i : Instr} (h : exec i s = .next t) (hx : x ∉ allFlags)
    (hp : x ∉ i.otherPiecesWritten) : Piece.same s t x :=
  exec_same h (Instr.not_mem_flagsWritten hx) hp

theorem exec_cfg {i : Instr} (h : exec i s = .next t) : t.cfg = s.cfg :=
  exec_same_of_not_flag (x := .cfg) h (by decide) fun hp => by
    simpa using Instr.otherPiecesWritten_cases hp

theorem exec_inte {i : Instr} (h : exec i s = .next t) (hei : i ≠ .ei) (hdi : i ≠ .di) :
    t.inte = s.inte :=
  exec_same_of_not_flag (x := .inte) h (by decide) fun hp => by
    simpa [hei, hdi] using Instr.otherPiecesWritten_cases hp

theorem exec_halted {i : Instr} (h : exec i s = .next t) (hhlt : i ≠ .hlt) : t.halted = s.halted :=
  exec_same_of_not_flag (x := .halted) h (by decide) fun hp => by
    simpa [hhlt] using Instr.otherPiecesWritten_cases hp

end

/-- Settles O13: what an instruction writes beside its row of R38 is no flag. -/
theorem flagsWrittenAsTable : Obligations.FlagsWrittenAsTable := by
  intro i s t h f hf hrow
  refine exec_same h hrow fun hp => ?_
  obtain ⟨r, rfl⟩ | rfl | rfl | ⟨rfl, -⟩ | ⟨rfl, -⟩ := Instr.otherPiecesWritten_cases hp
  all_goals simp [allFlags] at hf

/-- Settles O14: EI, DI and HLT by running them, every other instruction by its frame. -/
theorem inteAndHaltedWriters : Obligations.InteAndHaltedWriters := by
  intro i s t h
  constructor
  · split_ifs with hei hdi
    · subst hei; cases h; rfl
    · subst hdi; cases h; rfl
    · exact exec_inte h hei hdi
  · split_ifs with hhlt
    · subst hhlt; cases h; rfl
    · exact exec_halted h hhlt

end Machine

end Sys2Proof
end

section
/-! SUPPORT. `SUB_AUX_MODE` (D8): the final state in mode `borrow` is that in mode `i8080` with the mode
replaced and AC complemented, and every operation after the flags are written commutes with that. -/

namespace Sys2Proof

/-- The instructions that subtract, compare or decrement: those whose AC depends on the mode (R35). -/
def Instr.ReadsMode (i : Instr) : Prop :=
  (∃ src, i = .sub src ∨ i = .sbb src ∨ i = .cmp src) ∨
    (∃ v, i = .sui v ∨ i = .sbi v ∨ i = .cpi v) ∨ (∃ r, i = .dcrR r) ∨ i = .dcrM

end Sys2Proof

namespace Sys2Proof.Machine

/-- Flags with AC complemented. -/
def Flags.flipAc (f : Flags) : Flags := { f with ac := !f.ac }

/-- The state with `SUB_AUX_MODE` replaced. -/
def State.withMode (s : State) (mode : SubAuxMode) : State :=
  { s with cfg := { s.cfg with subAuxMode := mode } }

/-- The state in mode `borrow` with AC complemented. -/
def State.flipped (s : State) : State := (s.withMode .borrow).setFlags s.flags.flipAc

/-! ### The two modes of the ALU -/

/-- A borrow out of the low nibble is the complement of no borrow from it (R35). -/
theorem subAux_borrow (a b : Byte) (bin : Bool) : subAux .borrow a b bin = !subAux .i8080 a b bin := by
  simp only [subAux, ← decide_not, Nat.not_le]

theorem sub8_borrow (a b : Byte) (bin : Bool) :
    sub8 .borrow a b bin = ((sub8 .i8080 a b bin).1, (sub8 .i8080 a b bin).2.flipAc) := by
  simp only [sub8, Flags.flipAc, auxOf_subNibble, subAux_borrow]

theorem dec8_borrow (v : Byte) (f : Flags) :
    dec8 .borrow v f = ((dec8 .i8080 v f).1, (dec8 .i8080 v f).2.flipAc) := by
  simp only [dec8, Flags.flipAc, Flags.setSZP, bne, Bool.not_not]

/-! ### Operations on either side -/

section

variable (s : State) (mode : SubAuxMode)

@[simp] theorem State.withMode_subAuxMode : (s.withMode mode).cfg.subAuxMode = mode := rfl
@[simp] theorem State.withMode_flags : (s.withMode mode).flags = s.flags := rfl
@[simp] theorem State.withMode_reg (r : Reg) : (s.withMode mode).reg r = s.reg r := rfl
@[simp] theorem State.withMode_hl : (s.withMode mode).hl = s.hl := rfl
@[simp] theorem State.withMode_memRead (a : Word) :
    (s.withMode mode).memRead a = ((s.memRead a).1, (s.memRead a).2.withMode mode) := rfl
@[simp] theorem State.withMode_src8 (src : Operand8) :
    (s.withMode mode).src8 src = ((s.src8 src).1, (s.src8 src).2.withMode mode) := by
  cases src <;> rfl

@[simp] theorem State.flipped_setReg (r : Reg) (v : Byte) :
    s.flipped.setReg r v = (s.setReg r v).flipped := rfl
@[simp] theorem State.flipped_advance (i : Instr) : s.flipped.advance i = (s.advance i).flipped := rfl
@[simp] theorem State.flipped_memWrite (a : Word) (v : Byte) :
    s.flipped.memWrite a v = (s.memWrite a v).flipped := by
  have hstore : s.flipped.store a v = (s.store a v).flipped := by
    cases h : s.memMap.kindAt a <;>
      simp only [State.store, State.flipped, State.withMode, State.setFlags, h]
  simp only [State.memWrite, hstore]
  rfl

/-- Complementary flags written in the two modes end in flipped states. -/
@[simp] theorem State.withMode_setFlags_flipAc (f : Flags) :
    (s.withMode .borrow).setFlags f.flipAc = ((s.withMode .i8080).setFlags f).flipped := rfl

@[simp] theorem State.withMode_accumulate_sub8 (v : Byte) (bin : Bool) :
    (s.withMode .borrow).accumulate (fun a b => sub8 .borrow a b bin) v =
      ((s.withMode .i8080).accumulate (fun a b => sub8 .i8080 a b bin) v).flipped := by
  simp only [State.accumulate, sub8_borrow]
  rfl

@[simp] theorem State.withMode_compare (v : Byte) :
    (s.withMode .borrow).compare v = ((s.withMode .i8080).compare v).flipped := by
  simp [State.compare, sub8_borrow]

end

/-! ### Instructions -/

/-- The two final states of an instruction that subtracts, compares or decrements. -/
theorem exec_withMode {i : Instr} {s t u : State} (hi : i.ReadsMode)
    (ht : exec i (s.withMode .i8080) = .next t) (hu : exec i (s.withMode .borrow) = .next u) :
    u = t.flipped := by
  obtain ⟨src, rfl | rfl | rfl⟩ | ⟨v, rfl | rfl | rfl⟩ | ⟨r, rfl⟩ | rfl := hi
  all_goals
    cases ht
    cases hu
    simp [dec8_borrow]

/-- Settles O27: the final states are flipped, and no instruction writes the other parameters. -/
theorem subAuxModesDifferInAcOnly : Obligations.SubAuxModesDifferInAcOnly := by
  intro i s t u hi ht hu
  have hcfg : t.cfg = (s.withMode .i8080).cfg := exec_cfg ht
  rw [exec_withMode hi ht hu, State.flipped, State.withMode, hcfg]
  rfl

end Sys2Proof.Machine
end

section
/-! SUPPORT. The state at power-on and the status byte. -/

namespace Sys2Proof.Machine

/-- Settles O10: an empty memory is in canonical form, and the default tables list no count. -/
theorem resetHoldsInvariant : Obligations.ResetHoldsInvariant := ⟨rfl, rfl⟩

/-- Settles O11, register by register. -/
theorem powerOnState : Obligations.PowerOnState :=
  ⟨fun r => by cases r <;> rfl, rfl, rfl, rfl, rfl, rfl, rfl, rfl⟩

/-- The bits of the status byte (R29). -/
theorem Flags.statusByte_bits (f : Flags) :
    f.statusByte.getLsbD 7 = f.s ∧ f.statusByte.getLsbD 6 = f.z ∧ f.statusByte.getLsbD 5 = false ∧
    f.statusByte.getLsbD 4 = f.ac ∧ f.statusByte.getLsbD 3 = false ∧ f.statusByte.getLsbD 2 = f.p ∧
    f.statusByte.getLsbD 1 = true ∧ f.statusByte.getLsbD 0 = f.cy := by
  obtain ⟨s, z, ac, p, cy⟩ := f
  revert s z ac p cy
  decide

/-- A written byte reads back with its bits 5, 3 and 1 as R29 fixes them, compared bit by bit (R143). -/
theorem Flags.statusByte_ofStatusByte (v : Byte) :
    (Flags.ofStatusByte v).statusByte = (v &&& 0xD5#8) ||| 0x02#8 := by
  obtain ⟨h7, h6, h5, h4, h3, h2, h1, h0⟩ := (Flags.ofStatusByte v).statusByte_bits
  refine BitVec.eq_of_getLsbD_eq fun k hk => ?_
  rw [BitVec.getLsbD_or, BitVec.getLsbD_and]
  interval_cases k
  all_goals
    simp only [h0, h1, h2, h3, h4, h5, h6, h7]
    simp [Flags.ofStatusByte]

/-- Settles O22: the layout, and what a write keeps. -/
theorem statusByteLayout : Obligations.StatusByteLayout :=
  ⟨Flags.statusByte_bits, Flags.statusByte_ofStatusByte⟩

end Sys2Proof.Machine
end

section
/-! SUPPORT. The bus transactions an operation makes, and the part of the state they act on: what stands at
the addresses, the bytes held, the record of the transactions. Every operation takes this part of the state
through its transactions one by one and touches it in no other way, so one list of transactions for each
instruction settles the memory rules and the bus table. -/

namespace Sys2Proof

theorem Instr.length_le_three (i : Instr) : i.length ≤ 3 := by
  unfold Instr.length
  cases i.mode <;> decide

namespace Machine

/-! ### The bus side of a state -/

/-- The memory device, and the record and number of the transactions of both buses. -/
structure BusSide where
  memMap : MemMap
  mem : Memory
  log : List BusEvent
  count : Nat

/-- The bus side of a state. -/
def State.busSide (s : State) : BusSide := ⟨s.memMap, s.mem, s.out.bus, s.busCount⟩

/-- The bytes held after a transaction: a write that reaches RAM is stored (R63, R66). -/
def BusSide.memAfter (b : BusSide) : BusEvent → Memory
  | .memWrite a v => if b.memMap.kindAt a = .ram then b.mem.write a.toNat v else b.mem
  | .memRead _ _ => b.mem
  | .ioRead _ _ => b.mem
  | .ioWrite _ _ => b.mem

/-- A transaction acts on the bytes, joins the record and is counted. -/
def BusSide.after (b : BusSide) (e : BusEvent) : BusSide :=
  { b with mem := b.memAfter e, log := b.log ++ [e], count := b.count + 1 }

/-- The bus side after a list of transactions. -/
def BusSide.run (b : BusSide) (es : List BusEvent) : BusSide := es.foldl BusSide.after b

section

variable (b : BusSide) (e : BusEvent) (es : List BusEvent)

theorem BusSide.run_append (es' : List BusEvent) : b.run (es ++ es') = (b.run es).run es' :=
  List.foldl_append

@[simp] theorem BusSide.run_memMap : (b.run es).memMap = b.memMap := by
  induction es generalizing b with
  | nil => rfl
  | cons e es ih => exact ih (b.after e)

@[simp] theorem BusSide.run_log : (b.run es).log = b.log ++ es := by
  induction es generalizing b with
  | nil => exact (List.append_nil _).symm
  | cons e es ih => exact (ih (b.after e)).trans (List.append_assoc _ _ _)

@[simp] theorem BusSide.run_count : (b.run es).count = b.count + es.length := by
  induction es generalizing b with
  | nil => rfl
  | cons e es ih => exact (ih (b.after e)).trans (Nat.add_right_comm _ _ _)

variable {b}

theorem BusSide.memAfter_wf (h : b.mem.wf = true) : (b.memAfter e).wf = true := by
  cases e
  case memWrite a v =>
    simp only [BusSide.memAfter]
    split
    · exact Memory.wf_write h a.isLt
    · exact h
  all_goals exact h

theorem BusSide.run_wf (h : b.mem.wf = true) : (b.run es).mem.wf = true := by
  induction es generalizing b with
  | nil => exact h
  | cons e es ih => exact ih (memAfter_wf e h)

theorem BusSide.memAfter_read {a : Word} (h : b.memMap.kindAt a ≠ .ram) :
    (b.memAfter e).read a.toNat = b.mem.read a.toNat := by
  cases e
  case memWrite c v =>
    simp only [BusSide.memAfter]
    split
    next hc =>
      have hne : a ≠ c := fun hac => h (hac ▸ hc)
      exact Memory.read_write_ne _ _ fun hac => hne (BitVec.eq_of_toNat_eq hac)
    next => rfl
  all_goals rfl

/-- Transactions change no byte outside RAM. -/
theorem BusSide.run_read {a : Word} (h : b.memMap.kindAt a ≠ .ram) :
    (b.run es).mem.read a.toNat = b.mem.read a.toNat := by
  induction es generalizing b with
  | nil => rfl
  | cons e es ih => exact (ih (b := b.after e) h).trans (memAfter_read e h)

end

/-! ### The transactions of the shared operations -/

section

variable (s : State)

theorem State.busSide_memRead (a : Word) :
    (s.memRead a).2.busSide = s.busSide.run [.memRead a (s.answer 0 a)] := rfl

theorem State.busSide_memWrite (a : Word) (v : Byte) :
    (s.memWrite a v).busSide = s.busSide.run [.memWrite a v] := by
  have hmem : (s.store a v).mem = s.busSide.memAfter (.memWrite a v) := by
    by_cases h : s.memMap.kindAt a = .ram
    · simp [State.store, BusSide.memAfter, State.busSide, h]
    · simp [State.store_not_ram v h, BusSide.memAfter, State.busSide, h]
  simp only [State.busSide, State.memWrite_memMap, State.memWrite_mem, State.memWrite_out,
    State.memWrite_busCount, hmem]
  rfl

theorem State.busSide_memWrite_memWrite (a c : Word) (v w : Byte) :
    ((s.memWrite a v).memWrite c w).busSide = s.busSide.run [.memWrite a v, .memWrite c w] := by
  rw [busSide_memWrite, busSide_memWrite, ← BusSide.run_append]
  rfl

theorem State.busSide_ioRead (p : Byte) :
    (s.ioRead p).2.busSide = s.busSide.run [.ioRead p (s.portAnswer p)] := rfl

theorem State.busSide_ioWrite (p v : Byte) :
    (s.ioWrite p v).busSide = s.busSide.run [.ioWrite p v] := by
  simp [State.busSide, BusSide.run, BusSide.after, BusSide.memAfter]

theorem State.busSide_memRead16 (a : Word) :
    (s.memRead16 a).2.busSide =
      s.busSide.run [.memRead a (s.answer 0 a), .memRead (a + 1#16) (s.answer 1 (a + 1#16))] := by
  simp [State.busSide, BusSide.run, BusSide.after, BusSide.memAfter]

theorem State.busSide_push16 (w : Word) :
    (s.push16 w).busSide = s.busSide.run (s.pushEvents w) := by
  cases hb : s.cfg.stackHiAtSp
  all_goals
    simp only [State.push16, State.pushEvents, State.hiSlot, State.loSlot, State.setSp_cfg, hb]
    exact State.busSide_memWrite_memWrite (s.setSp (s.sp - 2#16)) _ _ _ _

theorem State.busSide_readTop : s.readTop.2.busSide = s.busSide.run s.topEvents :=
  s.busSide_memRead16 s.sp

/-- Over the top of the stack two bytes are written, in either order of the halves (R144). -/
theorem State.busSide_writeTop (w : Word) :
    ∃ u v, (s.writeTop w).busSide = s.busSide.run [.memWrite s.sp u, .memWrite (s.sp + 1#16) v] := by
  unfold State.writeTop
  split <;> exact ⟨_, _, s.busSide_memWrite_memWrite _ _ _ _⟩

theorem State.busSide_src8 (src : Operand8) :
    (s.src8 src).2.busSide = s.busSide.run (s.operandEvents src) := by
  cases src <;> rfl

theorem State.busSide_setRp16 (r : Rp) (w : Word) : (s.setRp16 r w).busSide = s.busSide := by
  cases r <;> rfl

theorem State.busSide_jumpIf (cond : Cond) (i : Instr) (a : Word) :
    (s.jumpIf cond i a).busSide = s.busSide := by
  unfold State.jumpIf
  split <;> rfl

theorem State.busSide_callIf (cond : Cond) (i : Instr) (a : Word) :
    (s.callIf cond i a).busSide =
      s.busSide.run (if s.flags.holds cond then s.pushEvents (s.nextPc i) else []) := by
  unfold State.callIf
  split
  · exact s.busSide_push16 _
  · rfl

theorem State.busSide_returnIf (cond : Cond) (i : Instr) :
    (s.returnIf cond i).busSide = s.busSide.run (if s.flags.holds cond then s.topEvents else []) := by
  unfold State.returnIf
  split
  · exact s.busSide_readTop
  · rfl

end

/-! ### The transactions of an instruction -/

/-- Reads, writes and I/O transactions in a list: the columns R, W and IO of the table of R74. -/
def busTally (es : List BusEvent) : Nat × Nat × Nat :=
  ((es.filter BusEvent.isMemRead).length, (es.filter BusEvent.isMemWrite).length,
    (es.filter BusEvent.isIo).length)

theorem busTally_append (es es' : List BusEvent) :
    busTally (es ++ es') = busTally es + busTally es' := by
  simp [busTally]

variable {s t : State}

/-- An instruction makes the transactions of its row of R74 and acts on the bus side by them alone. -/
theorem exec_busSide {i : Instr} (h : exec i s = .next t) :
    ∃ es, t.busSide = s.busSide.run es ∧ busTally es = i.traffic (i.taken s.flags) := by
  cases i
  all_goals cases h
  case movRM | lda | ldax => exact ⟨_, s.busSide_memRead _, rfl⟩
  case movMR | mviM | sta | stax => exact ⟨_, s.busSide_memWrite _ _, rfl⟩
  case lhld => exact ⟨_, s.busSide_memRead16 _, rfl⟩
  case shld => exact ⟨_, s.busSide_memWrite_memWrite _ _ _ _, rfl⟩
  case push | pushPsw | call | callDup | rst => exact ⟨_, s.busSide_push16 _, rfl⟩
  case pop | popPsw | ret | retDup => exact ⟨_, s.busSide_readTop, rfl⟩
  case xthl =>
    obtain ⟨u, v, hw⟩ := s.readTop.2.busSide_writeTop s.hl
    rw [State.busSide_readTop, ← BusSide.run_append] at hw
    exact ⟨_, hw, rfl⟩
  case inrM | dcrM =>
    exact ⟨[.memRead s.hl (s.answer 0 s.hl), .memWrite s.hl _], State.busSide_memWrite _ _ _, rfl⟩
  case inp => exact ⟨_, s.busSide_ioRead _, rfl⟩
  case out => exact ⟨_, s.busSide_ioWrite _ _, rfl⟩
  case add src | adc src | sub src | sbb src | ana src | xra src | ora src | cmp src =>
    exact ⟨_, s.busSide_src8 src, by cases src <;> rfl⟩
  case lxi | inx | dcx => exact ⟨[], s.busSide_setRp16 _ _, rfl⟩
  case jnz | jz | jnc | jc | jpo | jpe | jp | jm => exact ⟨[], s.busSide_jumpIf _ _ _, rfl⟩
  case cnz | cz | cnc | cc | cpo | cpe | cp | cm =>
    exact ⟨_, s.busSide_callIf _ _ _, apply_ite busTally _ _ _⟩
  case rnz | rz | rnc | rc | rpo | rpe | rp | rm =>
    exact ⟨_, s.busSide_returnIf _ _, apply_ite busTally _ _ _⟩
  all_goals exact ⟨[], rfl, rfl⟩

theorem exec_ioMap {i : Instr} (h : exec i s = .next t) : t.ioMap = s.ioMap :=
  exec_same_of_not_flag (x := .ioMap) h (by decide) fun hp => by
    simpa using Instr.otherPiecesWritten_cases hp

/-! ### The transactions of a step -/

section

variable (s)

/-- The bus side the fetch hands to the operation: no byte is changed, and the record begins with the
fetch. -/
theorem State.fetch_busSide : s.fetch.2.busSide =
    ⟨s.memMap, s.mem, s.fetchEvents.take s.fetch.1.length, s.busCount + s.fetch.1.length⟩ := by
  rw [State.fetch_state]
  rfl

theorem State.fetch_flags : s.fetch.2.flags = s.flags := by rw [State.fetch_state]
theorem State.fetch_cfg : s.fetch.2.cfg = s.cfg := by rw [State.fetch_state]
theorem State.fetch_ioMap : s.fetch.2.ioMap = s.ioMap := by rw [State.fetch_state]

end

theorem State.length_take_fetchEvents (s : State) (i : Instr) :
    (s.fetchEvents.take i.length).length = i.length :=
  List.length_take_of_le i.length_le_three

/-- The fetch reads, and does nothing else on the buses. -/
theorem State.busTally_take_fetchEvents (s : State) (i : Instr) :
    busTally (s.fetchEvents.take i.length) = (i.length, 0, 0) := by
  have hlen := i.length_le_three
  generalize i.length = n at hlen
  interval_cases n <;> rfl

/-- What a step does: while halted nothing (R248), else it runs what it fetched. -/
theorem step_cases (h : step s = .next t) :
    (s.halted = true ∧ t = s) ∨ (s.halted = false ∧ exec s.fetch.1 s.fetch.2 = .next t) := by
  unfold step at h
  split at h
  next hh => cases h; exact .inl ⟨hh, rfl⟩
  next hh => exact .inr ⟨by simpa using hh, h⟩

/-- A step that is not halted makes the transactions of its instruction after those of the fetch. -/
theorem step_busSide (hh : s.halted = false) (h : step s = .next t) :
    ∃ es, t.busSide = s.fetch.2.busSide.run es ∧
      busTally es = s.fetch.1.traffic (s.fetch.1.taken s.flags) := by
  obtain ⟨hh', -⟩ | ⟨-, h⟩ := step_cases h
  · exact absurd (hh.symm.trans hh') (by decide)
  · rw [← s.fetch_flags]
    exact exec_busSide h

/-! ### The obligations -/

/-- Settles O9: the transactions of a step keep the canonical form, and no instruction writes a parameter. -/
theorem stepKeepsInvariant : Obligations.StepKeepsInvariant := by
  intro s t ⟨hmem, hcfg⟩ hstep
  obtain ⟨-, rfl⟩ | ⟨-, h⟩ := step_cases hstep
  · exact ⟨hmem, hcfg⟩
  · obtain ⟨es, hbus, -⟩ := exec_busSide h
    have hfetch : s.fetch.2.busSide.mem.wf = true := by rwa [State.fetch_busSide]
    constructor
    · exact (congrArg (·.mem.wf) hbus).trans (BusSide.run_wf es hfetch)
    · rwa [exec_cfg h, State.fetch_cfg]

/-- Settles O16: a step acts on the bytes by its transactions alone. -/
theorem stepStoresOnlyInRam : Obligations.StepStoresOnlyInRam := by
  intro s t hstep
  obtain ⟨-, rfl⟩ | ⟨-, h⟩ := step_cases hstep
  · exact ⟨fun _ _ => rfl, rfl, rfl, rfl⟩
  · obtain ⟨es, hbus, -⟩ := exec_busSide h
    rw [State.fetch_busSide] at hbus
    refine ⟨fun a ha => ?_, ?_, ?_, ?_⟩
    · exact (congrArg (·.mem.read a.toNat) hbus).trans (BusSide.run_read es ha)
    · exact (congrArg (·.memMap) hbus).trans (BusSide.run_memMap _ es)
    · rw [exec_ioMap h, State.fetch_ioMap]
    · rw [exec_cfg h, State.fetch_cfg]

/-- Settles O17: the record is that of the fetch and then that of the instruction. -/
theorem busTransactionsAsTable : Obligations.BusTransactionsAsTable := by
  intro s t hhalted hstep i n
  obtain ⟨es, hbus, htally⟩ := step_busSide hhalted hstep
  rw [State.fetch_busSide] at hbus
  have hlog : t.out.bus = s.fetchEvents.take i.length ++ es :=
    (congrArg (·.log) hbus).trans (BusSide.run_log _ es)
  have hcount : t.busCount = s.busCount + i.length + es.length :=
    (congrArg (·.count) hbus).trans (BusSide.run_count _ es)
  have hn : busTally t.out.bus = (i.length, 0, 0) + n := by
    rw [hlog, busTally_append, s.busTally_take_fetchEvents, htally]
  obtain ⟨hread, hwrite, hio⟩ : _ ∧ _ ∧ _ := by simpa only [busTally, Prod.ext_iff] using hn
  refine ⟨hread, by simpa using hwrite, by simpa using hio, ?_, ?_⟩
  · rw [hcount, hlog, List.length_append, s.length_take_fetchEvents, Nat.add_assoc]
  · rw [hlog, List.take_left' (s.length_take_fetchEvents i)]
    rfl

end Machine

end Sys2Proof
end

section
/-! SUPPORT. The encoder and the decoder are inverse to each other: the decode tree finds in an opcode byte
the fields it was put together from (R91), and the code tables read them back (R93, R94). -/

namespace Sys2Proof

/-! ### The fields of an opcode byte (R91) -/

section

variable (g : BitVec 2) (m l : BitVec 3)

@[simp] theorem opGroup_opByte : opGroup (opByte g m l) = g := by
  revert g m l
  decide

@[simp] theorem opMid_opByte : opMid (opByte g m l) = m := by
  revert g m l
  decide

@[simp] theorem opLow_opByte : opLow (opByte g m l) = l := by
  revert g m l
  decide

@[simp] theorem opRp_opByte : opRp (opByte g m l) = m.extractLsb' 1 2 := by
  revert g m l
  decide

@[simp] theorem opSel_opByte : opSel (opByte g m l) = m[0] := by
  revert g m l
  decide

end

@[simp] theorem rpField_append (p : BitVec 2) (b : BitVec 1) : (p ++ b).extractLsb' 1 2 = p := by
  revert p b
  decide

@[simp] theorem selField_append (p : BitVec 2) (b : BitVec 1) : (p ++ b)[0] = b[0] := by
  revert p b
  decide

/-! ### The code tables read back (R93, R94) -/

@[simp] theorem operand8OfCode_code (o : Operand8) : operand8OfCode o.code = o := by
  cases o with
  | reg r => cases r <;> rfl
  | m => rfl

@[simp] theorem operand8OfCode_reg_code (r : Reg) : operand8OfCode r.code = .reg r :=
  operand8OfCode_code (.reg r)

@[simp] theorem operand8OfCode_six : operand8OfCode 6#3 = .m := rfl

@[simp] theorem rpOfCode_code (r : Rp) : rpOfCode r.code = r := by cases r <;> rfl

@[simp] theorem pairOfCode_code (p : Pair) : pairOfCode p.code = some p := by cases p <;> rfl

@[simp] theorem pairOfCode_three : pairOfCode 3#2 = none := rfl

/-! ### Decoding what was encoded -/

/-- The decode tree leads back to every well-formed instruction. The two conditions of `Instr.wf` are the two
tests for a duplicate's number in it. -/
theorem Instr.decodeOp_opcode_operandBytes {i : Instr} (hw : i.wf = true) :
    decodeOp i.opcode (i.operandBytes.getD 0 0#8) (i.operandBytes.getD 1 0#8) = i := by
  cases i
  case callDup p a =>
    have hp : p ≠ 0#2 := by simpa [Instr.wf] using hw
    simp [Instr.opcode, Instr.operandBytes, decodeOp, decodeGroup3, hp]
  case nopDup n =>
    have hn : n ≠ 0#3 := by simpa [Instr.wf] using hw
    simp [Instr.opcode, decodeOp, decodeGroup0, hn]
  case ldax pr | stax pr => cases pr <;> rfl
  all_goals
    simp [Instr.opcode, Instr.operandBytes, decodeOp, decodeGroup0, decodeGroup1, decodeGroup2,
      decodeGroup3, Cond.code]

/-- The encoding of what was decoded, and any bytes after it, decode to the same again. -/
theorem decode_encode_decodeOp (op b2 b3 : Byte) (rest : List Byte) :
    decode (encode (decodeOp op b2 b3) ++ rest) = .ok (decodeOp op b2 b3, rest) := by
  rw [encode, decodeOp_opcode_self, decodeOp_operandBytes]
  rcases opLength_cases op with e | e | e
  · simp [decode, e, decodeOp_of_length_one b2 b3 e]
  · simp [decode, e, decodeOp_of_length_two b2 b3 e]
  · simp [decode, e]

/-- What decodes begins with the encoding of the instruction read. -/
theorem eq_encode_of_decode {bytes rest : List Byte} {i : Instr} (h : decode bytes = .ok (i, rest)) :
    ∃ op b2 b3, i = decodeOp op b2 b3 ∧ bytes = encode i ++ rest := by
  cases bytes with
  | nil => cases h
  | cons op bytes =>
    simp only [encode]
    simp only [decode] at h
    split at h
    next e =>
      cases h
      exact ⟨op, 0#8, 0#8, rfl, by simp [decodeOp_opcode_self, decodeOp_operandBytes, e]⟩
    next b2 _ e =>
      cases h
      exact ⟨op, b2, 0#8, rfl, by simp [decodeOp_opcode_self, decodeOp_operandBytes, e]⟩
    next b2 b3 _ e =>
      cases h
      exact ⟨op, b2, b3, rfl, by simp [decodeOp_opcode_self, decodeOp_operandBytes, e]⟩
    next => cases h

/-- Enough bytes after the opcode decode to the instruction that they and the opcode give. -/
theorem decode_three (op b2 b3 : Byte) :
    decode [op, b2, b3] = .ok (decodeOp op b2 b3, [b2, b3].drop (opLength op - 1)) := by
  conv_lhs => rw [← List.take_append_drop (opLength op - 1) [b2, b3], ← decodeOp_operandBytes]
  have h := decode_encode_decodeOp op b2 b3 ([b2, b3].drop (opLength op - 1))
  rwa [encode, decodeOp_opcode_self] at h

theorem length_encode_decodeOp (op b2 b3 : Byte) : (encode (decodeOp op b2 b3)).length = opLength op := by
  rw [encode, List.length_cons, decodeOp_operandBytes]
  rcases opLength_cases op with e | e | e <;> rw [e] <;> rfl

/-! ### The obligations -/

/-- Settles O1: a well-formed instruction is what its own bytes decode to. -/
theorem decodeOfEncodeGivesInstructionBack : Obligations.DecodeOfEncodeGivesInstructionBack := by
  intro i rest hw
  rw [← Instr.decodeOp_opcode_operandBytes hw]
  exact decode_encode_decodeOp _ _ _ rest

/-- Settles O2: what decodes is read by the decode tree from an opcode and its bytes. -/
theorem encodeOfDecodeGivesBytesBack : Obligations.EncodeOfDecodeGivesBytesBack := by
  intro bytes rest i h
  obtain ⟨op, b2, b3, rfl, hbytes⟩ := eq_encode_of_decode h
  exact ⟨decodeOp_wf_true op b2 b3, hbytes.symm⟩

/-- Settles O5: the laws of the decoder, and a count of the opcodes of each length. -/
theorem opcodeAloneGivesLength : Obligations.OpcodeAloneGivesLength := by
  refine ⟨fun op b2 b3 => ⟨?_, ?_, ?_, ?_⟩, ?_, ?_, ?_⟩
  · exact decodeOp_opcode_self op b2 b3
  · exact decodeOp_length op b2 b3
  · exact opLength_cases op
  · exact length_encode_decodeOp op b2 b3
  all_goals rfl

end Sys2Proof
end

section
/-! SUPPORT. The opcode table: no mnemonic is empty, no count 0, and what the grid of R108 holds at the
opcode of each instruction. -/

namespace Sys2Proof

theorem Instr.mnemonic_ne_empty (i : Instr) : i.mnemonic ≠ "" := by
  cases i <;> simp [Instr.mnemonic]

theorem defaultCycles_pos (op : Byte) : 0 < defaultCycles op := by
  revert op
  decide

/-- A count that parameters allowed by R7 give is positive. -/
theorem Config.baseCycles_pos {c : Config} (hc : c.wf = true) (op : Byte) : 0 < c.baseCycles op := by
  unfold Config.baseCycles
  cases h : c.cycles.lookup (canonicalOpcode op) with
  | none => exact defaultCycles_pos _
  | some n =>
    obtain ⟨l, l', hl, -⟩ := List.lookup_eq_some_iff.mp h
    have hmem : (canonicalOpcode op, n) ∈ c.cycles := hl ▸ List.mem_append_right l List.mem_cons_self
    exact of_decide_eq_true (List.all_eq_true.mp hc _ hmem)

/-- Settles O4: a mnemonic is never empty, a count never 0. -/
theorem opcodeTableIsTotal : Obligations.OpcodeTableIsTotal :=
  fun _ op hc => ⟨Instr.mnemonic_ne_empty _, Config.baseCycles_pos hc op⟩

/-! ### The default counts (R108) -/

theorem defaultCycles_accumulator (k : BitVec 3) (src : Operand8) :
    defaultCycles (opByte 2#2 k src.code) = if src = .m then 7 else 4 := by
  revert k
  cases src with
  | reg r => cases r <;> decide
  | m => decide

theorem defaultCycles_immediate (k : BitVec 3) : defaultCycles (opByte 3#2 k 6#3) = 7 := by
  revert k
  decide

/-- The checksum of R108. The sum nests one addition for each of 256 opcodes, past the default limit. -/
theorem sum_defaultCycles :
    ((List.range 256).map fun n => defaultCycles (BitVec.ofNat 8 n)).sum = 1653 := by
  set_option maxRecDepth 2000 in decide

/-- Settles O19: the grid is read at each opcode, of which operand bytes are no part. -/
theorem defaultCyclesByInstruction : Obligations.DefaultCyclesByInstruction := by
  refine ⟨?movRR, ?movM, ?mvi, ?rp, ?indirect, ?direct, ?incDec, by decide, by decide, by decide,
    rfl, rfl, rfl, ?accumulator, ?immediate, ?inOut, ?stack, rfl, rfl, ?rst, ?jmpCall, ?conditional,
    sum_defaultCycles⟩
  case movRR => intro dst src; cases dst <;> cases src <;> rfl
  case movM | indirect | incDec | stack => intro r; cases r <;> decide
  case mvi | rp => intro r _; cases r <;> (simp only [Instr.opcode]; decide)
  case direct | jmpCall => intro _; simp only [Instr.opcode]; decide
  case accumulator =>
    intro f hf
    fin_cases hf
    all_goals exact ⟨fun r => defaultCycles_accumulator _ (.reg r), defaultCycles_accumulator _ .m⟩
  case immediate => intro f hf _; fin_cases hf <;> exact defaultCycles_immediate _
  case inOut => intro f hf _; fin_cases hf <;> (simp only [Instr.opcode]; decide)
  case rst => decide
  case conditional =>
    intro cond _
    cases cond <;> (simp only [Cond.jumpInstr, Cond.callInstr, Cond.retInstr, Instr.opcode]; decide)

end Sys2Proof
end

section
/-! SUPPORT. What an operation charges and which instructions end alike: an instruction enters the end of its
operation by its length and its canonical opcode alone. Then the step, which adds the fetch. -/

namespace Sys2Proof.Machine

section

variable (s : State) {i j : Instr}

/-! ### Instructions of one length and one canonical opcode -/

theorem State.nextPc_congr (hlen : i.length = j.length) : s.nextPc i = s.nextPc j := by
  rw [State.nextPc, State.nextPc, hlen]

theorem State.jump_congr (hop : canonicalOpcode i.opcode = canonicalOpcode j.opcode) (w : Word) :
    s.jump i w = s.jump j w := by
  simp only [State.jump, Config.baseCycles, hop]

theorem State.advance_congr (hlen : i.length = j.length)
    (hop : canonicalOpcode i.opcode = canonicalOpcode j.opcode) : s.advance i = s.advance j := by
  simp only [State.advance, Config.baseCycles, hop, s.nextPc_congr hlen]

theorem State.callTo_congr (a : Word) (hlen : i.length = j.length)
    (hop : canonicalOpcode i.opcode = canonicalOpcode j.opcode) : s.callTo i a = s.callTo j a := by
  rw [State.callTo, s.nextPc_congr hlen, State.jump_congr _ hop, State.callTo]

theorem canonicalOpcode_nopDup (n : BitVec 3) :
    canonicalOpcode (Instr.nopDup n).opcode = canonicalOpcode Instr.nop.opcode := by
  revert n
  decide

theorem canonicalOpcode_callDup (p : BitVec 2) (a : Word) :
    canonicalOpcode (Instr.callDup p a).opcode = canonicalOpcode (Instr.call a).opcode := by
  simp only [Instr.opcode]
  revert p
  decide

/-- Settles O20: a duplicate has the length and the canonical opcode of what it duplicates. -/
theorem duplicatesActAsCanonical : Obligations.DuplicatesActAsCanonical := by
  refine fun s a n p => ⟨?_, ?_, ?_, ?_⟩ <;> refine congrArg Host.Outcome.next ?_
  · exact s.advance_congr rfl (canonicalOpcode_nopDup n)
  · exact s.jump_congr rfl a
  · exact s.pop16.2.jump_congr rfl _
  · exact s.callTo_congr a rfl (canonicalOpcode_callDup p a)

/-! ### The cycles an instruction charges (R110 item 5) -/

/-- The base count of an instruction, and its extra count when it is taken. -/
def State.charge (s : State) (i : Instr) (taken : Bool) : Nat :=
  s.cfg.baseCycles i.opcode + if taken then s.cfg.extraCycles i.opcode else 0

theorem State.jumpIf_cycles (cond : Cond) (i : Instr) (a : Word) :
    (s.jumpIf cond i a).cycles = s.cycles + BitVec.ofNat 64 (s.charge i (s.flags.holds cond)) := by
  unfold State.jumpIf State.charge
  split <;> simp

theorem State.callIf_cycles (cond : Cond) (i : Instr) (a : Word) :
    (s.callIf cond i a).cycles = s.cycles + BitVec.ofNat 64 (s.charge i (s.flags.holds cond)) := by
  unfold State.callIf State.charge
  split <;> simp

theorem State.returnIf_cycles (cond : Cond) (i : Instr) :
    (s.returnIf cond i).cycles = s.cycles + BitVec.ofNat 64 (s.charge i (s.flags.holds cond)) := by
  unfold State.returnIf State.charge
  split <;> simp

@[simp] theorem State.src8_cycles (src : Operand8) : (s.src8 src).2.cycles = s.cycles := by
  cases src <;> rfl

@[simp] theorem State.src8_cfg (src : Operand8) : (s.src8 src).2.cfg = s.cfg := by cases src <;> rfl

variable {s} {t : State}

/-- An instruction charges its base count, a conditional transfer that is taken its extra count too. -/
theorem exec_cycles (h : exec i s = .next t) :
    t.cycles = s.cycles + BitVec.ofNat 64 (s.charge i (i.taken s.flags)) := by
  cases i
  all_goals cases h
  case jnz | jz | jnc | jc | jpo | jpe | jp | jm => exact s.jumpIf_cycles _ _ _
  case cnz | cz | cnc | cc | cpo | cpe | cp | cm => exact s.callIf_cycles _ _ _
  case rnz | rz | rnc | rc | rpo | rpe | rp | rm => exact s.returnIf_cycles _ _
  all_goals
    simp [State.charge, Instr.taken, Instr.condition, State.accumulate, State.compare, State.rotate,
      State.callTo, State.returnFrom]

end

theorem State.fetch_cycles (s : State) : s.fetch.2.cycles = s.cycles := by rw [State.fetch_state]

theorem State.fetch_opcode (s : State) : s.fetch.1.opcode = s.answer 0 s.pc := by
  rw [State.fetch_instr, decodeOp_opcode_self]

/-- A core that is not halted runs what was fetched. -/
theorem step_of_not_halted {s : State} (h : s.halted = false) : step s = exec s.fetch.1 s.fetch.2 :=
  if_neg (by simp [h])

/-! ### The obligations -/

/-- Settles O18: the fetch charges nothing, and the instruction fetched has the opcode read. -/
theorem cycleCounterCharges : Obligations.CycleCounterCharges := by
  intro s t hhalted hstep
  rw [step_of_not_halted hhalted] at hstep
  have ht := exec_cycles hstep
  rwa [State.charge, s.fetch_cycles, s.fetch_flags, s.fetch_cfg, s.fetch_opcode] at ht

/-- Settles O6: the fetch reads the bytes that decode to the instruction, and leaves its record. -/
theorem stepRunsDecodedInstruction : Obligations.StepRunsDecodedInstruction := by
  intro s i rest hhalted hdecode
  rw [decode_three, ← s.fetch_instr] at hdecode
  cases hdecode
  rw [step_of_not_halted hhalted, s.fetch_state]
  rfl

/-- Settles O7: a step asks first whether the core is halted. -/
theorem haltedStepDoesNothing : Obligations.HaltedStepDoesNothing :=
  fun _ h => if_pos h

end Sys2Proof.Machine
end

section
/-! SUPPORT. What an instruction keeps and how it ends (R110), from its transactions: its frame and its cycles
are settled for all instructions, so a statement about one is left with its transactions and its values. -/

namespace Sys2Proof

/-- The address of a write of the memory bus. -/
def Machine.BusEvent.writtenTo : Machine.BusEvent → Option Word
  | .memRead _ _ => none
  | .memWrite a _ => some a
  | .ioRead _ _ => none
  | .ioWrite _ _ => none

/-- Jumps, calls and returns, taken or not: the instructions that may write `pc` (R150 to R162). -/
def Instr.transfers : Instr → Bool
  | .jmp _ | .jmpDup _ | .jnz _ | .jz _ | .jnc _ | .jc _ | .jpo _ | .jpe _ | .jp _ | .jm _ | .pchl => true
  | .call _ | .callDup _ _ | .cnz _ | .cz _ | .cnc _ | .cc _ | .cpo _ | .cpe _ | .cp _ | .cm _ => true
  | .ret | .retDup | .rnz | .rz | .rnc | .rc | .rpo | .rpe | .rp | .rm | .rst _ => true
  | _ => false

theorem Instr.taken_of_not_transfers {i : Instr} (h : i.transfers = false) (f : Machine.Flags) :
    i.taken f = false := by
  cases i
  all_goals cases h
  all_goals rfl

namespace Machine

section

variable {s t : State} {i : Instr} {es : List BusEvent}

/-! ### Bytes and pieces -/

/-- A transaction changes no byte but that at the address it writes. -/
theorem BusSide.memAfter_read_of_not_written (b : BusSide) {e : BusEvent} {a : Word}
    (h : e.writtenTo ≠ some a) : (b.memAfter e).read a.toNat = b.mem.read a.toNat := by
  cases e
  case memWrite c v =>
    have hne : a.toNat ≠ c.toNat := fun hac => h (congrArg some (BitVec.eq_of_toNat_eq hac.symm))
    simp only [BusSide.memAfter]
    split
    · exact Memory.read_write_ne _ _ hne
    · rfl
  all_goals rfl

theorem BusSide.run_read_of_not_written (b : BusSide) {a : Word}
    (h : a ∉ es.filterMap BusEvent.writtenTo) : (b.run es).mem.read a.toNat = b.mem.read a.toNat := by
  simp only [List.mem_filterMap, not_exists, not_and] at h
  induction es generalizing b with
  | nil => rfl
  | cons e es ih =>
    exact (ih (b.after e) fun e' he' => h e' (List.mem_cons_of_mem e he')).trans
      (b.memAfter_read_of_not_written (h e List.mem_cons_self))

/-- An instruction keeps every piece but those it writes, and every byte but those its transactions write. -/
theorem exec_keeps (h : exec i s = .next t) (hbus : t.busSide = s.busSide.run es) :
    Keeps s t (i.flagsWritten ++ i.otherPiecesWritten) (es.filterMap BusEvent.writtenTo) := by
  constructor
  · intro x hx
    rw [List.mem_append, not_or] at hx
    obtain ⟨hflag, hother⟩ := hx
    exact exec_same h hflag hother
  · intro a ha
    exact (congrArg (·.mem.read a.toNat) hbus).trans (BusSide.run_read_of_not_written _ ha)

/-- A frame says less when it excepts more pieces. -/
theorem Keeps.mono {changed changed' : List Piece} {stored : List Word} (h : Keeps s t changed stored)
    (hsub : changed ⊆ changed') : Keeps s t changed' stored :=
  ⟨fun x hx => h.pieces x fun hmem => hx (hsub hmem), h.bytes⟩

/-! ### The record of the fetch -/

/-- The outputs of the fetch: the opcode byte and the resolved operand (R303). -/
def State.fetchRecord (s : State) : Option Byte × Resolved := (s.out.opcode, s.out.operand)

theorem State.fetchRecord_src8 (s : State) (src : Operand8) :
    (s.src8 src).2.fetchRecord = s.fetchRecord := by cases src <;> rfl

/-- No instruction touches the record of its fetch. -/
theorem exec_fetchRecord (h : exec i s = .next t) : t.fetchRecord = s.fetchRecord := by
  cases i
  all_goals cases h
  case jnz | jz | jnc | jc | jpo | jpe | jp | jm => unfold State.jumpIf; split <;> rfl
  case cnz | cz | cnc | cc | cpo | cpe | cp | cm =>
    unfold State.callIf; split <;> simp [State.fetchRecord]
  case rnz | rz | rnc | rc | rpo | rpe | rp | rm => unfold State.returnIf; split <;> rfl
  case add src | adc src | sub src | sbb src | ana src | xra src | ora src | cmp src =>
    exact s.fetchRecord_src8 src
  all_goals simp [State.fetchRecord, State.accumulate, State.compare, State.rotate,
      State.callTo, State.returnFrom]

/-! ### The end of an instruction -/

/-- An instruction charges its cycles, makes its transactions and leaves the record of the fetch. -/
theorem exec_ran (h : exec i s = .next t) (hbus : t.busSide = s.busSide.run es) :
    Ran s t t.pc (s.charge i (i.taken s.flags)) es := by
  obtain ⟨hopcode, hoperand⟩ := Prod.ext_iff.mp (exec_fetchRecord h)
  exact
    { pc := rfl
      cycles := exec_cycles h
      bus := (congrArg (·.log) hbus).trans (BusSide.run_log _ es)
      count := (congrArg (·.count) hbus).trans (BusSide.run_count _ es)
      opcode := hopcode
      operand := hoperand }

@[simp] theorem State.src8_pc (s : State) (src : Operand8) : (s.src8 src).2.pc = s.pc := by
  cases src <;> rfl

/-- What is no transfer leaves `pc` at the next instruction (R110 item 4). -/
theorem exec_pc_of_not_transfers (h : exec i s = .next t) (hi : i.transfers = false) :
    t.pc = s.nextPc i := by
  cases i
  all_goals cases hi
  all_goals
    cases h
    simp [State.nextPc, State.accumulate, State.compare, State.rotate]

/-- What is no transfer ends at the next instruction and charges its base count. -/
theorem exec_ran_of_not_transfers (h : exec i s = .next t) (hbus : t.busSide = s.busSide.run es)
    (hi : i.transfers = false) : Ran s t (s.nextPc i) (s.cfg.baseCycles i.opcode) es := by
  have hran := exec_ran h hbus
  rwa [exec_pc_of_not_transfers h hi, Instr.taken_of_not_transfers hi] at hran

/-- Frame and end together: all that is left to say of the instruction are the values it writes. -/
theorem exec_keeps_and_ran (i : Instr) (h : exec i s = .next t) (hbus : t.busSide = s.busSide.run es)
    (hi : i.transfers = false) :
    Keeps s t (i.flagsWritten ++ i.otherPiecesWritten) (es.filterMap BusEvent.writtenTo) ∧
      Ran s t (s.nextPc i) (s.cfg.baseCycles i.opcode) es :=
  ⟨exec_keeps h hbus, exec_ran_of_not_transfers h hbus hi⟩

end

end Machine

end Sys2Proof
end

section
/-! SUPPORT. The statements about data transfer (spec/40_data_transfer.md, and SPHL): every instruction here
completes by running it, so each needs its transactions and the values it leaves. -/

namespace Sys2Proof.Machine

/-- Settles O3: each word is read by the decode tree. -/
theorem writtenOutWordsDecode : Obligations.WrittenOutWordsDecode := by
  refine ⟨?_, ?_, ?_, ?_, ?_, ?_, ?_, ?_, ?_, ?_, ?_, ?_, ?_⟩
  all_goals rfl

/-- Settles O29: no transaction is made, and the register reads as the value written. -/
theorem movAndMviWriteRegister : Obligations.MovAndMviWriteRegister := by
  refine fun s dst => ⟨fun src => ?_, fun v => ?_⟩
  · exact ⟨_, rfl, by simp, exec_keeps_and_ran (.movRR dst src) (es := []) rfl rfl rfl⟩
  · exact ⟨_, rfl, by simp, exec_keeps_and_ran (.mviR dst v) (es := []) rfl rfl rfl⟩

/-- Settles O30: one read, whose answer the register holds. -/
theorem loadsReadOneByte : Obligations.LoadsReadOneByte := by
  intro s
  have hbus := s.busSide_memRead
  refine ⟨fun dst => ?_, fun a => ?_, fun pr => ?_⟩
  · exact ⟨_, rfl, by simp, exec_keeps_and_ran (.movRM dst) rfl (hbus _) rfl⟩
  · exact ⟨_, rfl, by simp, exec_keeps_and_ran (.lda a) rfl (hbus _) rfl⟩
  · exact ⟨_, rfl, by simp, exec_keeps_and_ran (.ldax pr) rfl (hbus _) rfl⟩

/-- Settles O31: one write, which stores its byte (R63). -/
theorem storesWriteOneByte : Obligations.StoresWriteOneByte := by
  intro s
  have hbus := s.busSide_memWrite
  have hstored := memWrite_stored s
  refine ⟨fun src => ?_, fun v => ?_, fun a => ?_, fun pr => ?_⟩
  · exact ⟨_, rfl, (hstored _ _).congr rfl, exec_keeps_and_ran (.movMR src) rfl (hbus _ _) rfl⟩
  · exact ⟨_, rfl, (hstored _ _).congr rfl, exec_keeps_and_ran (.mviM v) rfl (hbus _ _) rfl⟩
  · exact ⟨_, rfl, (hstored _ _).congr rfl, exec_keeps_and_ran (.sta a) rfl (hbus _ _) rfl⟩
  · exact ⟨_, rfl, (hstored _ _).congr rfl, exec_keeps_and_ran (.stax pr) rfl (hbus _ _) rfl⟩

@[simp] theorem State.advance_rp16 (s : State) (i : Instr) (r : Rp) : (s.advance i).rp16 r = s.rp16 r := by
  cases r <;> rfl

/-- Settles O32: no transaction is made, and the pair or `sp` reads as the word written. -/
theorem lxiAndSphlWriteWord : Obligations.LxiAndSphlWriteWord := by
  refine fun s => ⟨fun pr w => ?_, ?_⟩
  · have hbus := s.busSide_setRp16 pr w
    exact ⟨_, rfl, by simp, exec_keeps_and_ran (.lxi pr w) (es := []) rfl hbus rfl⟩
  · exact ⟨_, rfl, rfl, exec_keeps_and_ran .sphl (es := []) rfl rfl rfl⟩

/-- Settles O33: two reads, of which the first gives the low byte (R64). -/
theorem lhldLoadsLowByteFirst : Obligations.LhldLoadsLowByteFirst := by
  intro s a
  refine ⟨_, rfl, ?_, ?_, exec_keeps_and_ran (.lhld a) rfl (s.busSide_memRead16 a) rfl⟩
  all_goals simp [Pair.low, Pair.high]

/-- Settles O34: the low byte of HL is L and is written first (R65); the two addresses differ, also where the
second one wraps. -/
theorem shldStoresLowByteFirst : Obligations.ShldStoresLowByteFirst := by
  intro s a
  obtain ⟨hlow, hhigh⟩ := memWrite16_stored s a s.hl
  have hframe := exec_keeps_and_ran (s := s) (.shld a) rfl (s.busSide_memWrite_memWrite _ _ _ _) rfl
  rw [s.loByte_hl] at hlow hframe
  rw [s.hiByte_hl] at hhigh hframe
  exact ⟨_, rfl, hlow.congr rfl, hhigh.congr rfl, hframe⟩

/-- Settles O35: each pair is written with the old value of the other. -/
theorem xchgSwapsHlAndDe : Obligations.XchgSwapsHlAndDe := by
  refine ⟨rfl, rfl, fun s => ?_⟩
  obtain ⟨hkeeps, hran⟩ := exec_keeps_and_ran .xchg (s := s) (es := []) rfl rfl rfl
  refine ⟨_, rfl, ?_, ?_, ?_, ?_, hkeeps.mono (by decide), hran⟩
  all_goals simp [Pair.low, Pair.high]

end Sys2Proof.Machine
end

section
/-! SUPPORT. The statements about the stack (spec/41_stack.md): a push is read back by the pop after it, and
writing over the top of the stack leaves the bytes that a push from two above leaves. -/

namespace Sys2Proof.Machine

/-! ### The status byte -/

/-- The status byte holds the five flags (R29, R143). -/
theorem Flags.ofStatusByte_statusByte (f : Flags) : Flags.ofStatusByte f.statusByte = f := by
  obtain ⟨h7, h6, -, h4, -, h2, -, h0⟩ := f.statusByte_bits
  rw [Flags.ofStatusByte, h7, h6, h4, h2, h0]

section

variable {s : State}

/-! ### The slot of a word -/

/-- The two bytes of a word stand at the two addresses of its slot, in either byte order (R68). -/
theorem State.eq_hiSlot_or_eq_loSlot_iff (s : State) (a base : Word) :
    a = s.hiSlot base ∨ a = s.loSlot base ↔ a = base ∨ a = base + 1#16 := by
  unfold State.hiSlot State.loSlot
  split
  · exact Iff.rfl
  · exact or_comm

/-- What a write leaves at its address depends on the memory device alone. -/
theorem Stored.cell_eq {t s' t' : State} {a : Word} {v : Byte} (h : Stored s t a v)
    (h' : Stored s' t' a v) (hm : s.mem.wf = true) (hmem : s'.mem = s.mem)
    (hmap : s'.memMap = s.memMap) : t.cell a = t'.cell a := by
  by_cases hk : s.memMap.kindAt a = .ram
  · rw [h.ram hm hk, h'.ram (hmem ▸ hm) (hmap ▸ hk)]
  · rw [h.other hk, h'.other (hmap ▸ hk), State.cell, State.cell, hmem]

/-! ### Push, pop and the top of the stack -/

/-- The word read after a push is the word pushed, where RAM backs the two bytes (R70, R71). -/
theorem State.topWord_push16 (w : Word) (hm : s.mem.wf = true)
    (h0 : s.memMap.kindAt (s.sp - 2#16) = .ram) (h1 : s.memMap.kindAt (s.sp - 2#16 + 1#16) = .ram) :
    (s.push16 w).topWord = w := by
  obtain ⟨hsp, hhigh, hlow⟩ := push16_pushed s w
  have hans0 := State.answer_ram (s := s.push16 w) (a := s.sp - 2#16) 0 (by simpa using h0)
  have hans1 := State.answer_ram (s := s.push16 w) (a := s.sp - 2#16 + 1#16) 1 (by simpa using h1)
  unfold State.hiSlot at hhigh
  unfold State.loSlot at hlow
  rw [State.topWord, State.push16_cfg, hsp, hans0, hans1]
  split_ifs at hhigh hlow ⊢
  · rw [hhigh.ram hm h0, hlow.ram hm h1, mkWord_hiByte_loByte]
  · rw [hhigh.ram hm h1, hlow.ram hm h0, mkWord_hiByte_loByte]

/-- A word written over the top of the stack leaves the bytes that its push from two above leaves. -/
theorem State.writeTop_cell_eq_push16_cell {u : State} (w a : Word) (hm : s.mem.wf = true)
    (hmem : u.mem = s.mem) (hmap : u.memMap = s.memMap) (hcfg : u.cfg = s.cfg)
    (hsp : u.sp - 2#16 = s.sp) : (s.writeTop w).cell a = (u.push16 w).cell a := by
  obtain ⟨hhigh, hlow⟩ := writeTop_stored s w
  obtain ⟨-, hhigh', hlow'⟩ := push16_pushed u w
  rw [hsp, State.hiSlot, hcfg, ← State.hiSlot] at hhigh'
  rw [hsp, State.loSlot, hcfg, ← State.loSlot] at hlow'
  by_cases ha : a = s.sp ∨ a = s.sp + 1#16
  · obtain rfl | rfl := (s.eq_hiSlot_or_eq_loSlot_iff a s.sp).mpr ha
    · exact hhigh.cell_eq hhigh' hm hmem hmap
    · exact hlow.cell_eq hlow' hm hmem hmap
  · obtain ⟨h0, h1⟩ := not_or.mp ha
    rw [writeTop_cell_ne s w h0 h1, State.push16_cell_ne u w (hsp ▸ h0) (hsp ▸ h1), State.cell,
      State.cell, hmem]

/-- The two writes over the top of the stack, the byte at `sp` first (R144). -/
def State.writeTopEvents (s : State) (w : Word) : List BusEvent :=
  if s.cfg.stackHiAtSp then [.memWrite s.sp (hiByte w), .memWrite (s.sp + 1#16) (loByte w)]
  else [.memWrite s.sp (loByte w), .memWrite (s.sp + 1#16) (hiByte w)]

theorem State.busSide_writeTop_writeTopEvents (s : State) (w : Word) :
    (s.writeTop w).busSide = s.busSide.run (s.writeTopEvents w) := by
  unfold State.writeTop State.writeTopEvents
  split <;> exact s.busSide_memWrite_memWrite _ _ _ _

theorem State.writeTopEvents_writtenTo (s : State) (w : Word) :
    (s.writeTopEvents w).filterMap BusEvent.writtenTo = [s.sp, s.sp + 1#16] := by
  unfold State.writeTopEvents
  split <;> rfl

/-! ### What a pop leaves -/

/-- POP rp loads the pair and raises `sp` by 2 (R142). -/
theorem exec_pop {t : State} {p : Pair} (h : exec (.pop p) s = .next t) :
    t.pair p = s.topWord ∧ t.sp = s.sp + 2#16 := by
  cases h
  simp [State.topWord]

/-- POP PSW loads A and the flags and raises `sp` by 2 (R143). -/
theorem exec_popPsw {t : State} (h : exec .popPsw s = .next t) :
    t.reg .a = hiByte s.topWord ∧ t.flags = Flags.ofStatusByte (loByte s.topWord) ∧
      t.sp = s.sp + 2#16 := by
  cases h
  simp [State.topWord]

end

/-! ### The obligations -/

/-- Settles O23: the word a pop finds is the word pushed, and the status byte holds the flags. -/
theorem pushThenPopRestores : Obligations.PushThenPopRestores := by
  intro s hm h0 h1
  refine ⟨fun p q t u ht hu => ?_, fun t u ht hu => ?_⟩
  · cases ht
    obtain ⟨hpair, hsp⟩ := exec_pop hu
    exact ⟨hpair.trans (State.topWord_push16 _ hm h0 h1), by simp [hsp]⟩
  · cases ht
    obtain ⟨ha, hflags, hsp⟩ := exec_popPsw hu
    have htop : ((s.push16 s.psw).advance .pushPsw).topWord = s.psw := State.topWord_push16 _ hm h0 h1
    rw [htop, State.hiByte_psw] at ha
    rw [htop, State.loByte_psw, State.status, Flags.ofStatusByte_statusByte] at hflags
    exact ⟨ha, hflags, by simp [hsp]⟩

/-- Settles O25: both read the same word, and the push after the pop writes where XTHL writes. -/
theorem xthlIsPopThenPush : Obligations.XthlIsPopThenPush := by
  intro s t u v hm ht hu hv
  cases ht
  cases hu
  cases hv
  refine ⟨by simp, by simp, fun a => ?_⟩
  exact State.writeTop_cell_eq_push16_cell (s := s.readTop.2) s.hl a hm rfl rfl rfl (by simp)

/-- Settles O36: the two writes of a push, and its frame. -/
theorem pushStoresWord : Obligations.PushStoresWord := by
  intro s
  have hpushed (w : Word) (i : Instr) : Pushed s ((s.push16 w).advance i) w :=
    (push16_pushed s w).congr rfl fun _ => rfl
  refine ⟨fun pr => ?_, ?_⟩
  · exact ⟨_, rfl, hpushed _ _, (push16_keeps s _).advance _,
      exec_ran_of_not_transfers (i := .push pr) rfl (s.busSide_push16 _) rfl⟩
  · exact ⟨_, rfl, hpushed _ _, (push16_keeps s _).advance _,
      exec_ran_of_not_transfers (i := .pushPsw) rfl (s.busSide_push16 _) rfl⟩

/-- Settles O37: two reads, whose word the pair holds. -/
theorem popLoadsPair : Obligations.PopLoadsPair := by
  intro s pr
  obtain ⟨hpair, hsp⟩ := exec_pop (s := s) (p := pr) rfl
  exact ⟨_, rfl, hpair, hsp, exec_keeps_and_ran (.pop pr) rfl s.busSide_readTop rfl⟩

/-- Settles O38: two reads; the flags are bits of the low byte, which are bits of the word. -/
theorem popPswLoadsFlags : Obligations.PopPswLoadsFlags := by
  intro s
  obtain ⟨ha, hflags, hsp⟩ := exec_popPsw (s := s) rfl
  obtain ⟨hkeeps, hran⟩ := exec_keeps_and_ran (s := s) .popPsw rfl s.busSide_readTop rfl
  refine ⟨_, rfl, ha, ?_, ?_, ?_, ?_, ?_, hsp, hkeeps.mono (by decide), hran⟩
  all_goals
    rw [hflags]
    exact loByte_getLsbD _ (by decide)

/-- Settles O39: two reads and then two writes, in either byte order to the two addresses of the top. -/
theorem xthlExchanges : Obligations.XthlExchanges := by
  intro s
  obtain ⟨hhigh, hlow⟩ := writeTop_stored s.readTop.2 s.hl
  have hbus := s.readTop.2.busSide_writeTop_writeTopEvents s.hl
  rw [s.busSide_readTop, ← BusSide.run_append] at hbus
  obtain ⟨hkeeps, hran⟩ := exec_keeps_and_ran (s := s) .xthl rfl hbus rfl
  rw [s.hiByte_hl] at hhigh
  rw [s.loByte_hl] at hlow
  rw [List.filterMap_append, State.writeTopEvents_writtenTo] at hkeeps
  rw [State.writeTopEvents, s.hiByte_hl, s.loByte_hl] at hran
  exact ⟨_, rfl, by simp [State.topWord], ⟨hhigh.ram, hhigh.other⟩, ⟨hlow.ram, hlow.other⟩, hkeeps, hran⟩

end Sys2Proof.Machine
end

section
/-! SUPPORT. The statements about control transfer (spec/42_control_transfer.md). A transfer that is not taken
ends at the next instruction; any other ends in a jump, after a push or a pop or neither. What such an end
keeps and charges is said once for all the instructions that share it. -/

namespace Sys2Proof

/-! ### The conditional transfers -/

section

variable (cond : Cond) (a : Word)

theorem Cond.condition_jumpInstr : (cond.jumpInstr a).condition = some cond := by cases cond <;> rfl
theorem Cond.condition_callInstr : (cond.callInstr a).condition = some cond := by cases cond <;> rfl
theorem Cond.condition_retInstr : cond.retInstr.condition = some cond := by cases cond <;> rfl

end

namespace Machine

section

variable (s : State) (cond : Cond) (a : Word)

theorem State.nextPc_jumpInstr : s.nextPc (cond.jumpInstr a) = s.pc + 3#16 := by cases cond <;> rfl
theorem State.nextPc_callInstr : s.nextPc (cond.callInstr a) = s.pc + 3#16 := by cases cond <;> rfl
theorem State.nextPc_retInstr : s.nextPc cond.retInstr = s.pc + 1#16 := by cases cond <;> rfl

end

section

variable {s t : State} {i : Instr} {cond : Cond} {es : List BusEvent}

theorem exec_jumpInstr_of_holds (a : Word) (hh : s.flags.holds cond = true) :
    exec (cond.jumpInstr a) s = .next (s.jumpTaken (cond.jumpInstr a) a) := by
  cases cond
  all_goals exact congrArg Host.Outcome.next (if_pos hh)

theorem exec_callInstr_of_holds (a : Word) (hh : s.flags.holds cond = true) :
    exec (cond.callInstr a) s =
      .next ((s.push16 (s.nextPc (cond.callInstr a))).jumpTaken (cond.callInstr a) a) := by
  cases cond
  all_goals exact congrArg Host.Outcome.next (if_pos hh)

theorem exec_retInstr_of_holds (hh : s.flags.holds cond = true) :
    exec cond.retInstr s = .next (s.pop16.2.jumpTaken cond.retInstr s.pop16.1) := by
  cases cond
  all_goals exact congrArg Host.Outcome.next (if_pos hh)

/-- A conditional transfer whose condition does not hold only ends the step (R151, R153, R155). -/
theorem exec_of_not_holds (hi : i.condition = some cond) (hh : s.flags.holds cond = false) :
    exec i s = .next (s.advance i) := by
  cases i
  all_goals cases hi
  all_goals exact congrArg Host.Outcome.next (if_neg (Bool.eq_false_iff.mp hh))

/-! ### What a transfer charges (R110 item 5) -/

theorem exec_ran_of_unconditional (hi : i.condition = none) (h : exec i s = .next t)
    (hbus : t.busSide = s.busSide.run es) : Ran s t t.pc (s.cfg.baseCycles i.opcode) es := by
  have hran := exec_ran h hbus
  rwa [Instr.taken, hi] at hran

theorem exec_ran_of_holds (hi : i.condition = some cond) (hh : s.flags.holds cond = true)
    (h : exec i s = .next t) (hbus : t.busSide = s.busSide.run es) :
    Ran s t t.pc (s.cfg.baseCycles i.opcode + s.cfg.extraCycles i.opcode) es := by
  have hran := exec_ran h hbus
  simp only [Instr.taken, hi, hh] at hran
  exact hran

theorem exec_ran_of_not_holds (hi : i.condition = some cond) (hh : s.flags.holds cond = false)
    (h : exec i s = .next t) (hbus : t.busSide = s.busSide.run es) :
    Ran s t t.pc (s.cfg.baseCycles i.opcode) es := by
  have hran := exec_ran h hbus
  simp only [Instr.taken, hi, hh] at hran
  exact hran

/-! ### What a transfer keeps -/

theorem Keeps.refl : Keeps s s [] [] := ⟨fun _ _ => Piece.same_refl, fun _ _ => rfl⟩

/-- A pop changes `sp` only (R71). -/
theorem pop16_keeps (s : State) : Keeps s s.pop16.2 [.sp] [] := by
  refine ⟨fun x hx => ?_, fun a _ => s.pop16_cell a⟩
  rw [Piece.same_pop16 (List.ne_of_not_mem_cons hx)]
  exact Piece.same_refl

/-! ### The ends of the transfers -/

/-- Not taken, a conditional transfer changes nothing and goes to the next instruction. -/
theorem not_taken_keeps_and_ran (hi : i.condition = some cond) (hh : s.flags.holds cond = false) :
    Keeps s (s.advance i) [] [] ∧ Ran s (s.advance i) (s.nextPc i) (s.cfg.baseCycles i.opcode) [] :=
  ⟨Keeps.refl.advance i, exec_ran_of_not_holds hi hh (exec_of_not_holds hi hh) rfl⟩

theorem jump_keeps_and_ran {w : Word} (hi : i.condition = none) (h : exec i s = .next (s.jump i w)) :
    Keeps s (s.jump i w) [] [] ∧ Ran s (s.jump i w) w (s.cfg.baseCycles i.opcode) [] :=
  ⟨Keeps.refl.jump i w, exec_ran_of_unconditional hi h rfl⟩

/-- A call pushes the address of the next instruction and goes to its own (R152). -/
theorem callTo_pushed_keeps_and_ran {a : Word} (hi : i.condition = none)
    (h : exec i s = .next (s.callTo i a)) :
    Pushed s (s.callTo i a) (s.nextPc i) ∧ Keeps s (s.callTo i a) [.sp] s.pushSlots ∧
      Ran s (s.callTo i a) a (s.cfg.baseCycles i.opcode) (s.pushEvents (s.nextPc i)) :=
  ⟨(push16_pushed s _).congr rfl fun _ => rfl, (push16_keeps s _).jump i a,
    exec_ran_of_unconditional hi h (s.busSide_push16 _)⟩

theorem State.returnFrom_pc (s : State) (i : Instr) : (s.returnFrom i).pc = s.topWord := pop16_topWord s

theorem State.returnFrom_sp (s : State) (i : Instr) : (s.returnFrom i).sp = s.sp + 2#16 := rfl

/-- A return goes to the word at the top of the stack (R154). -/
theorem returnFrom_keeps_and_ran (hi : i.condition = none) (h : exec i s = .next (s.returnFrom i)) :
    Keeps s (s.returnFrom i) [.sp] [] ∧
      Ran s (s.returnFrom i) s.topWord (s.cfg.baseCycles i.opcode) s.topEvents := by
  have hran := exec_ran_of_unconditional hi h s.busSide_readTop
  rw [s.returnFrom_pc i] at hran
  exact ⟨(pop16_keeps s).jump i _, hran⟩

/-- The vector of RST n (R97, D16): three zero bits after the number multiply it by 8. -/
theorem rst_vector (n : BitVec 3) : n.setWidth 16 <<< 3 = BitVec.ofNat 16 (8 * n.toNat) := by
  revert n
  decide

end

/-! ### The obligations -/

/-- Settles O24: the word the return finds is the word the call pushed. -/
theorem callThenRetReturns : Obligations.CallThenRetReturns := by
  intro s t u a hm h0 h1 ht hu
  cases ht
  cases hu
  have htop : (s.callTo (.call a) a).topWord = s.pc + 3#16 := State.topWord_push16 _ hm h0 h1
  exact ⟨rfl, (State.returnFrom_pc _ _).trans htop, by simp [State.returnFrom_sp, State.callTo]⟩

/-- Settles O42: each of the three ends in a call. -/
theorem callAndRstPushReturnAddress : Obligations.CallAndRstPushReturnAddress := by
  refine fun s => ⟨fun a => ?_, fun p a => ?_, fun n => ?_⟩
  · exact ⟨_, rfl, callTo_pushed_keeps_and_ran (i := .call a) rfl rfl⟩
  · exact ⟨_, rfl, callTo_pushed_keeps_and_ran (i := .callDup p a) rfl rfl⟩
  · rw [← rst_vector]
    exact ⟨_, rfl, callTo_pushed_keeps_and_ran (i := .rst n) rfl rfl⟩

/-- Settles O43: a call that charges the extra cycles, or the next instruction. -/
theorem conditionalCalls : Obligations.ConditionalCalls := by
  intro cond a s
  have hi := cond.condition_callInstr a
  rw [← s.nextPc_callInstr cond a]
  cases hh : s.flags.holds cond with
  | true =>
    have h := exec_callInstr_of_holds a hh
    exact ⟨_, h, fun _ => ⟨(push16_pushed s _).congr rfl fun _ => rfl, (push16_keeps s _).jumpTaken _ _,
      exec_ran_of_holds hi hh h (s.busSide_push16 _)⟩, nofun⟩
  | false => exact ⟨_, exec_of_not_holds hi hh, nofun, fun _ => not_taken_keeps_and_ran hi hh⟩

/-- Settles O45: a return that charges the extra cycles, or the next instruction. -/
theorem conditionalReturns : Obligations.ConditionalReturns := by
  intro cond s
  have hi := cond.condition_retInstr
  rw [← s.nextPc_retInstr cond]
  cases hh : s.flags.holds cond with
  | true =>
    have h := exec_retInstr_of_holds hh
    have hran := exec_ran_of_holds hi hh h s.busSide_readTop
    rw [State.jumpTaken_pc, pop16_topWord] at hran
    exact ⟨_, h, fun _ => ⟨rfl, (pop16_keeps s).jumpTaken _ _, hran⟩, nofun⟩
  | false => exact ⟨_, exec_of_not_holds hi hh, nofun, fun _ => not_taken_keeps_and_ran hi hh⟩

/-- Settles O21: the conditions come in pairs, one for each value of a flag that is not AC. -/
theorem conditionsReadOneFlag : Obligations.ConditionsReadOneFlag := by
  intro f
  have hnot (b : Bool) : (!b) = true ↔ b = false := iff_of_eq (Bool.not_eq_true' b)
  exact ⟨hnot f.z, Iff.rfl, hnot f.cy, Iff.rfl, hnot f.p, Iff.rfl, hnot f.s, Iff.rfl,
    fun cond _ => by cases cond <;> rfl⟩

/-- Settles O40: each of the three ends in a jump. -/
theorem jmpAndPchlWritePc : Obligations.JmpAndPchlWritePc := by
  refine fun s => ⟨fun a => ?_, fun a => ?_, ?_⟩
  · exact ⟨_, rfl, jump_keeps_and_ran (i := .jmp a) rfl rfl⟩
  · exact ⟨_, rfl, jump_keeps_and_ran (i := .jmpDup a) rfl rfl⟩
  · exact ⟨_, rfl, jump_keeps_and_ran (i := .pchl) rfl rfl⟩

/-- Settles O41: a jump that charges the extra cycles, or the next instruction. -/
theorem conditionalJumps : Obligations.ConditionalJumps := by
  intro cond a s
  have hi := cond.condition_jumpInstr a
  rw [← s.nextPc_jumpInstr cond a]
  cases hh : s.flags.holds cond with
  | true =>
    have h := exec_jumpInstr_of_holds a hh
    exact ⟨_, h, Keeps.refl.jumpTaken _ _, fun _ => exec_ran_of_holds hi hh h rfl, nofun⟩
  | false =>
    obtain ⟨hkeeps, hran⟩ := not_taken_keeps_and_ran hi hh
    exact ⟨_, exec_of_not_holds hi hh, hkeeps, nofun, fun _ => hran⟩

/-- Settles O44: both end in a return. -/
theorem retPopsPc : Obligations.RetPopsPc := by
  rintro s i (rfl | rfl)
  all_goals exact ⟨_, rfl, s.returnFrom_sp _, returnFrom_keeps_and_ran rfl rfl⟩

end Machine

end Sys2Proof
end

section
/-! SUPPORT. The statements about increment and decrement (spec/43_inc_dec.md). `inc8` and `dec8` give value
and flags, which INR and DCR put in the same places: the register, or the byte at HL after one read of it. -/

namespace Sys2Proof.Machine

section

variable (s : State) (a : Word) (f : Flags) (v : Byte)

/-- INR M and DCR M make one read, then one write of the same address (R171, R173). -/
theorem State.busSide_memRead_setFlags_memWrite :
    (((s.memRead a).2.setFlags f).memWrite a v).busSide =
      s.busSide.run [.memRead a (s.answer 0 a), .memWrite a v] :=
  State.busSide_memWrite _ a v

/-- The read and the new flags change neither the bytes nor what stands at the addresses. -/
theorem memRead_setFlags_memWrite_stored :
    Stored s (((s.memRead a).2.setFlags f).memWrite a v) a v := by
  obtain ⟨hram, hother⟩ := memWrite_stored ((s.memRead a).2.setFlags f) a v
  exact ⟨hram, hother⟩

end

/-- Settles O46: the register, or the byte at HL, becomes what `inc8` gives. -/
theorem inrIncrements : Obligations.InrIncrements := by
  refine ⟨rfl, fun _ => rfl, rfl, rfl, fun s => ⟨fun r => ?_, ?_⟩⟩
  · obtain ⟨hvalue, hflags, hac, -⟩ := inc8_spec (s.reg r) s.flags
    obtain ⟨hkeeps, hran⟩ := exec_keeps_and_ran (s := s) (.inrR r) (es := []) rfl rfl rfl
    exact ⟨_, rfl, by simpa using hvalue, by simpa using hflags, hac,
      hkeeps.mono List.perm_append_comm.subset, hran⟩
  · obtain ⟨hvalue, hflags, hac, -⟩ := inc8_spec (s.answer 0 s.hl) s.flags
    have hstored := memRead_setFlags_memWrite_stored s s.hl
    have hbus := s.busSide_memRead_setFlags_memWrite s.hl
    exact ⟨_, _, rfl, hvalue, (hstored _ _).congr rfl, by simpa using hflags, by simpa using hac,
      exec_keeps_and_ran .inrM rfl (hbus _ _) rfl⟩

/-- Settles O47: the register, or the byte at HL, becomes what `dec8` gives in the mode of the state (D8). -/
theorem dcrDecrements : Obligations.DcrDecrements := by
  refine fun s => ⟨fun r => ?_, ?_⟩
  · obtain ⟨hvalue, hflags, hac, -⟩ := dec8_spec s.cfg.subAuxMode (s.reg r) s.flags
    obtain ⟨hkeeps, hran⟩ := exec_keeps_and_ran (s := s) (.dcrR r) (es := []) rfl rfl rfl
    exact ⟨_, rfl, by simpa using hvalue, by simpa using hflags, hac,
      hkeeps.mono List.perm_append_comm.subset, hran⟩
  · obtain ⟨hvalue, hflags, hac, -⟩ := dec8_spec s.cfg.subAuxMode (s.answer 0 s.hl) s.flags
    have hstored := memRead_setFlags_memWrite_stored s s.hl
    have hbus := s.busSide_memRead_setFlags_memWrite s.hl
    exact ⟨_, _, rfl, hvalue, (hstored _ _).congr rfl, by simpa using hflags, by simpa using hac,
      exec_keeps_and_ran .dcrM rfl (hbus _ _) rfl⟩

/-- Settles O48: no transaction is made, and the pair or `sp` reads as the word written; one less modulo 2^16
is 65535 more. -/
theorem inxAndDcxWrap : Obligations.InxAndDcxWrap := by
  refine ⟨rfl, rfl, fun _ => ⟨rfl, rfl⟩, fun s pr => ?_⟩
  have hbus := s.busSide_setRp16 pr
  refine ⟨⟨_, rfl, by simp, exec_keeps_and_ran (.inx pr) (es := []) rfl (hbus _) rfl⟩, ?_⟩
  exact ⟨_, rfl, by simp [Nat.add_comm], exec_keeps_and_ran (.dcx pr) (es := []) rfl (hbus _) rfl⟩

end Sys2Proof.Machine
end

section
/-! SUPPORT. The statements about addition and subtraction (spec/44_arithmetic.md). `add8` and `sub8` give
value and flags, which the eight-bit operations put in A and the flags; DAD puts its sum in HL and its carry
in CY. -/

namespace Sys2Proof

/-- An operand of either kind is named in the opcode byte (R93). -/
theorem Operand8.mode_length (src : Operand8) : src.mode.length = 1 := by cases src <;> rfl

namespace Machine

/-! ### Accumulator operations -/

/-- The value a read of the operand answers (R93). -/
@[simp] theorem State.src8_fst (s : State) (src : Operand8) : (s.src8 src).1 = s.operand src := by
  cases src <;> rfl

/-- Reading an operand changes no register. -/
@[simp] theorem State.src8_reg (s : State) (src : Operand8) (q : Reg) :
    (s.src8 src).2.reg q = s.reg q := by
  cases src <;> rfl

/-- Reading an operand writes no byte. -/
theorem State.operandEvents_writtenTo (s : State) (src : Operand8) :
    (s.operandEvents src).filterMap BusEvent.writtenTo = [] := by
  cases src <;> rfl

@[simp] theorem State.accumulate_reg_a (s : State) (f : Byte → Byte → Byte × Flags) (v : Byte) :
    (s.accumulate f v).reg .a = (f (s.reg .a) v).1 := rfl

@[simp] theorem State.accumulate_flags (s : State) (f : Byte → Byte → Byte × Flags) (v : Byte) :
    (s.accumulate f v).flags = (f (s.reg .a) v).2 := rfl

section

variable {s : State} {i : Instr} {f : Byte → Byte → Byte × Flags} {P : Byte → Flags → Prop}

/-- An instruction that ends in an accumulator operation on an operand leaves in A and the flags what the
operation gives; all it does beside that is to read the operand. -/
theorem exec_accumulate_src8 {src : Operand8}
    (h : exec i s = .next (((s.src8 src).2.accumulate f (s.src8 src).1).advance i))
    (hmode : i.mode = src.mode) (hi : i.transfers = false)
    (hpieces : i.flagsWritten ++ i.otherPiecesWritten = allFlags ++ [.reg .a])
    (hP : P (f (s.reg .a) (s.operand src)).1 (f (s.reg .a) (s.operand src)).2) :
    ∃ t, exec i s = .next t ∧ P (t.reg .a) t.flags ∧ Keeps s t (.reg .a :: allFlags) [] ∧
      Ran s t (s.pc + 1#16) (s.cfg.baseCycles i.opcode) (s.operandEvents src) := by
  obtain ⟨hkeeps, hran⟩ := exec_keeps_and_ran i h (s.busSide_src8 src) hi
  rw [State.nextPc, Instr.length, hmode, src.mode_length] at hran
  rw [hpieces, s.operandEvents_writtenTo] at hkeeps
  exact ⟨_, h, by simpa using hP, hkeeps.mono List.perm_append_comm.subset, hran⟩

/-- The same of an immediate operand, which the fetch has read. -/
theorem exec_accumulate_imm {v : Byte} (h : exec i s = .next ((s.accumulate f v).advance i))
    (hi : i.transfers = false) (hpieces : i.flagsWritten ++ i.otherPiecesWritten = allFlags ++ [.reg .a])
    (hP : P (f (s.reg .a) v).1 (f (s.reg .a) v).2) :
    ∃ t, exec i s = .next t ∧ P (t.reg .a) t.flags ∧ Keeps s t (.reg .a :: allFlags) [] ∧
      Ran s t (s.nextPc i) (s.cfg.baseCycles i.opcode) [] := by
  obtain ⟨hkeeps, hran⟩ := exec_keeps_and_ran i h (es := []) rfl hi
  rw [hpieces] at hkeeps
  exact ⟨_, h, by simpa using hP, hkeeps.mono List.perm_append_comm.subset, hran⟩

end

/-! ### The pair DAD writes -/

@[simp] theorem State.setPair_hl_hl (s : State) (w : Word) : (s.setPair .hl w).hl = w := by
  simp [State.hl]

/-! ### The obligations -/

/-- Settles O49: each of the four ends in `add8` on A and its operand. -/
theorem additionsGiveSumAndFlags : Obligations.AdditionsGiveSumAndFlags := by
  refine ⟨rfl, rfl, fun _ => ⟨rfl, rfl, rfl, rfl⟩, fun s => ⟨?_, ?_⟩⟩
  · rintro ctor cin (⟨rfl, rfl⟩ | ⟨rfl, rfl⟩) src
    all_goals exact exec_accumulate_src8 (P := IsSum _ _ _) rfl rfl rfl rfl (add8_isSum _ _ _)
  · rintro ctor cin (⟨rfl, rfl⟩ | ⟨rfl, rfl⟩) v
    all_goals exact exec_accumulate_imm (P := IsSum _ _ _) rfl rfl rfl (add8_isSum _ _ _)

/-- Settles O50: each of the four ends in `sub8` on A and its operand, in the mode of the state (D8). -/
theorem subtractionsGiveDifferenceAndFlags : Obligations.SubtractionsGiveDifferenceAndFlags := by
  refine fun s => ⟨?_, ?_⟩
  · rintro ctor bin (⟨rfl, rfl⟩ | ⟨rfl, rfl⟩) src
    all_goals
      exact exec_accumulate_src8 (P := IsDifference _ _ _ _) rfl rfl rfl rfl (sub8_isDifference _ _ _ _)
  · rintro ctor bin (⟨rfl, rfl⟩ | ⟨rfl, rfl⟩) v
    all_goals
      exact exec_accumulate_imm (P := IsDifference _ _ _ _) rfl rfl rfl (sub8_isDifference _ _ _ _)

/-- Settles O51: HL and CY become what `add16` gives, and no transaction is made. -/
theorem dadAddsToHl : Obligations.DadAddsToHl := by
  refine ⟨rfl, fun _ => rfl, fun s pr => ?_⟩
  obtain ⟨hvalue, hcarry⟩ := add16_spec s.hl (s.rp16 pr)
  obtain ⟨hkeeps, hran⟩ := exec_keeps_and_ran (s := s) (.dad pr) (es := []) rfl rfl rfl
  exact ⟨_, rfl, by simpa using hvalue, by simpa using hcarry,
    hkeeps.mono List.perm_append_comm.subset, hran⟩

end Machine

end Sys2Proof
end

section
/-! SUPPORT. The statements about the bitwise operations and compare (spec/45_logical.md). `logic8` gives value
and flags, which end in A and the flags as those of an addition do; a compare writes the flags alone. -/

namespace Sys2Proof.Machine

/-! ### The bitwise operations -/

/-- `v` and `f` are the result and the five flags of a bitwise operation on `a` and `b` (R200). -/
def IsLogic (op : LogicOp) (a b v : Byte) (f : Flags) : Prop :=
  v = op.apply a b ∧ IsBitwise v (op.aux a b) f

theorem logic8_isLogic (op : LogicOp) (a b : Byte) :
    IsLogic op a b (logic8 op a b).1 (logic8 op a b).2 :=
  ⟨logic8_fst op a b, logic8_isBitwise op a b⟩

/-- AC of the AND is set when bit 3 of either operand is (R200). -/
theorem LogicOp.and_aux (a b : Byte) : LogicOp.and.aux a b = (a.getLsbD 3 || b.getLsbD 3) :=
  BitVec.getLsbD_or

section

variable {s : State} {i : Instr} (op : LogicOp)

/-- A bitwise operation on an operand leaves its result in A and its flags. -/
theorem exec_logic8_src8 {src : Operand8}
    (h : exec i s = .next (((s.src8 src).2.accumulate (logic8 op) (s.src8 src).1).advance i))
    (hmode : i.mode = src.mode) (hi : i.transfers = false)
    (hpieces : i.flagsWritten ++ i.otherPiecesWritten = allFlags ++ [.reg .a]) :
    ∃ t, exec i s = .next t ∧ t.reg .a = op.apply (s.reg .a) (s.operand src) ∧
      IsBitwise (t.reg .a) (op.aux (s.reg .a) (s.operand src)) t.flags ∧
      Keeps s t (.reg .a :: allFlags) [] ∧
      Ran s t (s.pc + 1#16) (s.cfg.baseCycles i.opcode) (s.operandEvents src) := by
  obtain ⟨t, ht, ⟨hvalue, hflags⟩, hframe⟩ :=
    exec_accumulate_src8 (P := IsLogic op _ _) h hmode hi hpieces (logic8_isLogic op _ _)
  exact ⟨t, ht, hvalue, hflags, hframe⟩

/-- The same of an immediate operand. -/
theorem exec_logic8_imm {v : Byte} (h : exec i s = .next ((s.accumulate (logic8 op) v).advance i))
    (hi : i.transfers = false)
    (hpieces : i.flagsWritten ++ i.otherPiecesWritten = allFlags ++ [.reg .a]) :
    ∃ t, exec i s = .next t ∧ t.reg .a = op.apply (s.reg .a) v ∧
      IsBitwise (t.reg .a) (op.aux (s.reg .a) v) t.flags ∧
      Keeps s t (.reg .a :: allFlags) [] ∧
      Ran s t (s.nextPc i) (s.cfg.baseCycles i.opcode) [] := by
  obtain ⟨t, ht, ⟨hvalue, hflags⟩, hframe⟩ :=
    exec_accumulate_imm (P := IsLogic op _ _) h hi hpieces (logic8_isLogic op _ _)
  exact ⟨t, ht, hvalue, hflags, hframe⟩

end

/-! ### Compare -/

/-- A compare discards the difference (R204, R208). -/
@[simp] theorem State.compare_flags (s : State) (v : Byte) :
    (s.compare v).flags = (sub8 s.cfg.subAuxMode (s.reg .a) v false).2 := rfl

/-! ### The obligations -/

/-- Settles O52: both end in the AND of `logic8` on A and the operand. -/
theorem andSetsAuxFromBit3 : Obligations.AndSetsAuxFromBit3 := by
  refine ⟨rfl, fun _ => ⟨rfl, rfl⟩, fun s => ⟨fun src => ?_, fun v => ?_⟩⟩
  all_goals simp only [← LogicOp.and_aux]
  · exact exec_logic8_src8 .and rfl rfl rfl rfl
  · exact exec_logic8_imm .and rfl rfl rfl

/-- Settles O53: each of the four ends in the XOR or the OR of `logic8`, whose AC is 0 (D9). -/
theorem xorAndOrClearCarries : Obligations.XorAndOrClearCarries := by
  refine fun s => ⟨?_, ?_⟩
  · rintro ctor f (⟨rfl, rfl⟩ | ⟨rfl, rfl⟩) src
    · exact exec_logic8_src8 .xor rfl rfl rfl rfl
    · exact exec_logic8_src8 .or rfl rfl rfl rfl
  · rintro ctor f (⟨rfl, rfl⟩ | ⟨rfl, rfl⟩) v
    · exact exec_logic8_imm .xor rfl rfl rfl
    · exact exec_logic8_imm .or rfl rfl rfl

/-- Settles O54: both end in a compare, which writes the flags alone, in the mode of the state (D8). -/
theorem comparesKeepAccumulator : Obligations.ComparesKeepAccumulator := by
  refine fun s => ⟨fun src => ?_, fun v => ?_⟩
  · have hdiff := sub8_isDifference s.cfg.subAuxMode (s.reg .a) (s.operand src) false
    obtain ⟨hkeeps, hran⟩ := exec_keeps_and_ran (.cmp src) rfl (s.busSide_src8 src) rfl
    rw [s.operandEvents_writtenTo] at hkeeps
    rw [State.nextPc, Instr.length, Instr.mode, src.mode_length] at hran
    exact ⟨_, _, rfl, by simpa using hdiff, hkeeps, hran⟩
  · exact ⟨_, _, rfl, sub8_isDifference _ _ _ _, exec_keeps_and_ran (.cpi v) (es := []) rfl rfl rfl⟩

end Sys2Proof.Machine
end

section
/-! SUPPORT. The statements about the rotates (spec/46_rotate.md), and about the pairs of instructions that
undo each other. A rotate puts `RotateOp.apply` in A and `RotateOp.carry` in CY; RAL and RAR are inverse as
functions of these two, so they are inverse in the state. -/

namespace Sys2Proof.Machine

/-! ### A rotate -/

@[simp] theorem State.rotate_reg (s : State) (op : RotateOp) (q : Reg) :
    (s.rotate op).reg q = if q = .a then op.apply (s.reg .a) s.flags.cy else s.reg q := by
  simp [State.rotate]

@[simp] theorem State.rotate_flags (s : State) (op : RotateOp) :
    (s.rotate op).flags = { s.flags with cy := op.carry (s.reg .a) } := rfl

/-- An instruction of one byte that ends in a rotate leaves the rotated byte in A and the bit that left it in
CY, and makes no transaction. -/
theorem exec_rotate {s : State} {i : Instr} {value : Nat} {carry : Bool} (op : RotateOp)
    (h : exec i s = .next ((s.rotate op).advance i)) (hmode : i.mode = .implied)
    (hi : i.transfers = false) (hpieces : i.flagsWritten ++ i.otherPiecesWritten = [.cy, .reg .a])
    (hvalue : (op.apply (s.reg .a) s.flags.cy).toNat = value) (hcarry : op.carry (s.reg .a) = carry) :
    ∃ t, exec i s = .next t ∧ (t.reg .a).toNat = value ∧ t.flags.cy = carry ∧
      Keeps s t [.reg .a, .cy] [] ∧ Ran s t (s.pc + 1#16) (s.cfg.baseCycles i.opcode) [] := by
  obtain ⟨hkeeps, hran⟩ := exec_keeps_and_ran i h (es := []) rfl hi
  rw [hpieces] at hkeeps
  rw [State.nextPc, Instr.length, hmode] at hran
  exact ⟨_, h, by simpa using hvalue, by simpa using hcarry, hkeeps.mono (by decide), hran⟩

/-! ### A rotate after a rotate -/

/-- The second rotate, entered with the carry of the first, gives back the byte and the carry. -/
structure RotateOp.Undoes (back op : RotateOp) : Prop where
  value : ∀ a cy, back.apply (op.apply a cy) (op.carry a) = a
  carry : ∀ a cy, back.carry (op.apply a cy) = cy

theorem bitNat_injective : Function.Injective bitNat := by decide

theorem bitNat_ral_carry (a : Byte) : bitNat (RotateOp.ral.carry a) = a.toNat / 128 := by
  rw [RotateOp.carry, bitNat_getLsbD]
  omega

theorem bitNat_rar_carry (a : Byte) : bitNat (RotateOp.rar.carry a) = a.toNat % 2 := by
  rw [RotateOp.carry, bitNat_getLsbD, Nat.pow_zero, Nat.div_one]

/-- A 9-bit rotate right after one left (R222, R223). -/
theorem RotateOp.rar_undoes_ral : RotateOp.rar.Undoes .ral where
  value a cy := by
    have hcy := bitNat_le_one cy
    refine BitVec.eq_of_toNat_eq ?_
    simp only [rotate_toNat, bitNat_ral_carry]
    omega
  carry a cy := by
    have hcy := bitNat_le_one cy
    refine bitNat_injective ?_
    simp only [bitNat_rar_carry, rotate_toNat]
    omega

/-- A 9-bit rotate left after one right (R222, R223). -/
theorem RotateOp.ral_undoes_rar : RotateOp.ral.Undoes .rar where
  value a cy := by
    refine BitVec.eq_of_toNat_eq ?_
    simp only [rotate_toNat, bitNat_rar_carry]
    omega
  carry a cy := by
    refine bitNat_injective ?_
    simp only [bitNat_ral_carry, rotate_toNat]
    omega

/-! ### Registers and flags given back -/

/-- A register file is what its registers read as. -/
theorem Regs.eq_of_get {x y : Regs} (h : ∀ q, x.get q = y.get q) : x = y := by
  cases x
  cases y
  rw [Regs.mk.injEq]
  exact ⟨h .b, h .c, h .d, h .e, h .h, h .l, h .a⟩

theorem State.regs_eq_of_reg {s t : State} (h : ∀ q, t.reg q = s.reg q) : t.regs = s.regs :=
  Regs.eq_of_get h

/-- A rotate undone restores the registers and the flags; of these it wrote A and CY alone. -/
theorem rotate_rotate_of_undoes {back op : RotateOp} (h : back.Undoes op) (s : State) (i j : Instr) :
    ((((s.rotate op).advance i).rotate back).advance j).regs = s.regs ∧
      ((((s.rotate op).advance i).rotate back).advance j).flags = s.flags := by
  constructor
  · refine State.regs_eq_of_reg fun q => ?_
    by_cases hq : q = .a <;> simp [hq, h.value]
  · simp [h.carry]

/-! ### The obligations -/

/-- Settles O55: each of the four ends in its rotate, whose value and carry over the naturals are known
(D18). -/
theorem rotatesMoveOneBit : Obligations.RotatesMoveOneBit := by
  rintro s i value carry (⟨rfl, rfl, rfl⟩ | ⟨rfl, rfl, rfl⟩ | ⟨rfl, rfl, rfl⟩ | ⟨rfl, rfl, rfl⟩)
  all_goals exact exec_rotate _ rfl rfl rfl rfl (rotate_toNat _ _ _) (rotate_carry _ _)

/-- Settles O26: RAL and RAR undo each other (D18); XCHG puts each pair back where it was, and a complement
is undone by a complement. -/
theorem inversePairsRestore : Obligations.InversePairsRestore := by
  refine fun s t u => ⟨?_, ?_, ?_, ?_, ?_⟩
  all_goals
    intro h1 h2
    cases h1
    cases h2
  · exact rotate_rotate_of_undoes RotateOp.rar_undoes_ral s _ _
  · exact rotate_rotate_of_undoes RotateOp.ral_undoes_rar s _ _
  · refine State.regs_eq_of_reg fun q => ?_
    cases q <;> simp [Pair.high, Pair.low]
  · refine State.regs_eq_of_reg fun q => ?_
    by_cases hq : q = .a <;> simp [hq]
  · simp

end Sys2Proof.Machine
end

section
/-! SUPPORT. The statements about CMA, STC, CMC and DAA (spec/47_special.md). `daa8` adds 6 and 0x60 by its
two conditions. After a sum of packed BCD numbers the first says whether the units reach 10 and the second
whether the numbers reach 100, which is why DAA makes the sum decimal. -/

namespace Sys2Proof.Machine

/-! ### Decimal sums in packed BCD -/

/-- Below 100 each digit fits its nibble. -/
theorem packedBcd_toNat {n : Nat} (hn : n < 100) : (packedBcd n).toNat = n / 10 * 16 + n % 10 := by
  rw [packedBcd, BitVec.toNat_ofNat]
  omega

/-- Adding 0x60 drops the hundred: ten of the upper digit and 6 make 16, which leaves the byte. -/
theorem packedBcd_mod_hundred_toNat {n : Nat} (hn : n < 200) :
    (packedBcd (n % 100)).toNat = (n / 10 * 16 + n % 10 + if 100 ≤ n then 0x60 else 0) % 256 := by
  rw [packedBcd_toNat (Nat.mod_lt n (by decide))]
  split <;> omega

/-- Adding 6 carries the units: the binary sum of two packed numbers becomes the digits of their sum. -/
theorem packed_sum_add_six {x y c : Nat} (hc : c ≤ 1) :
    x / 10 * 16 + x % 10 + (y / 10 * 16 + y % 10) + c + (if 10 ≤ x % 10 + y % 10 + c then 6 else 0) =
      (x + y + c) / 10 * 16 + (x + y + c) % 10 := by
  split <;> omega

/-- A binary sum `w` that 6 or 0 turns into the digits of `n` shows the hundred of `n` in the upper digit, or
has left the byte. -/
theorem upper_digit_or_carry_iff {w six n : Nat} (hdigits : w + six = n / 10 * 16 + n % 10) :
    9 < (w % 256 + six) / 16 ∨ 256 ≤ w ↔ 100 ≤ n := by
  omega

/-- DAA makes the sum of packed BCD numbers decimal (R233). -/
theorem daa8_of_isSum_packedBcd {x y : Nat} {cin : Bool} {v : Byte} {f : Flags} (hx : x < 100)
    (hy : y < 100) (hsum : IsSum (packedBcd x) (packedBcd y) cin v f) :
    (daa8 v f).1 = packedBcd ((x + y + bitNat cin) % 100) ∧
      (daa8 v f).2.cy = decide (100 ≤ x + y + bitNat cin) := by
  obtain ⟨hvalue, hcarry, haux, -⟩ := hsum
  rw [packedBcd_toNat hx, packedBcd_toNat hy] at hvalue hcarry haux
  have hc := bitNat_le_one cin
  obtain ⟨six, sixty, hsix, hsixty, hresult, -, hcy, -⟩ := daa8_spec v f
  have hfirst : 9 < v.toNat % 16 ∨ f.ac = true ↔ 10 ≤ x % 10 + y % 10 + bitNat cin := by
    rw [haux, decide_eq_true_eq]
    omega
  have hdigits := packed_sum_add_six (x := x) (y := y) hc
  rw [← if_congr hfirst rfl rfl, ← hsix] at hdigits
  have hsecond : 9 < (v.toNat + six) / 16 ∨ f.cy = true ↔ 100 ≤ x + y + bitNat cin := by
    rw [hvalue, hcarry, decide_eq_true_eq]
    exact upper_digit_or_carry_iff hdigits
  rw [if_congr hsecond rfl rfl] at hsixty
  constructor
  · refine BitVec.eq_of_toNat_eq ?_
    rw [hresult, packedBcd_mod_hundred_toNat (by omega), ← hsixty, ← hdigits, hvalue, Nat.add_assoc,
      Nat.mod_add_mod, ← Nat.add_assoc]
  · rw [hcy, hsixty, decide_eq_decide]
    split <;> omega

/-! ### The obligations -/

/-- Settles O28: ACI leaves the sum and its flags, which DAA makes decimal (D10). -/
theorem daaAfterAciGivesDecimalSum : Obligations.DaaAfterAciGivesDecimalSum := by
  intro x y s t u hx hy ha haci hdaa
  have hsum := add8_isSum (s.reg .a) (packedBcd y) s.flags.cy
  cases haci
  cases hdaa
  rw [ha] at hsum
  simpa [ha] using daa8_of_isSum_packedBcd hx hy hsum

/-- Settles O57: A and the flags become what `daa8` gives, and no transaction is made (D10). -/
theorem daaAdjusts : Obligations.DaaAdjusts := by
  intro s
  obtain ⟨six, sixty, hsix, hsixty, hvalue, hac, hcy, hflags⟩ := daa8_spec (s.reg .a) s.flags
  obtain ⟨hkeeps, hran⟩ := exec_keeps_and_ran (s := s) .daa (es := []) rfl rfl rfl
  exact ⟨_, six, sixty, rfl, hsix, hsixty, by simpa using hvalue, hac, hcy, by simpa using hflags,
    hkeeps.mono List.perm_append_comm.subset, hran⟩

/-- Settles O56: no transaction is made, and the complement of a byte is its difference from 255. -/
theorem cmaStcCmcComplete : Obligations.CmaStcCmcComplete := by
  refine ⟨rfl, rfl, rfl, by decide, fun s => ⟨?_, ?_, ?_⟩⟩
  · exact ⟨_, rfl, by simp, exec_keeps_and_ran .cma (es := []) rfl rfl rfl⟩
  · exact ⟨_, rfl, rfl, exec_keeps_and_ran .stc (es := []) rfl rfl rfl⟩
  · exact ⟨_, rfl, rfl, exec_keeps_and_ran .cmc (es := []) rfl rfl rfl⟩

end Sys2Proof.Machine
end

section
/-! SUPPORT. The statements about input and output, machine control, the absence of faults, reset and `set_pc`
(spec/48_io.md, 49_control.md, 60_exceptions.md, 70_reset_and_hazards.md). Every arm of `exec` ends in a next
state, so an instruction here needs its transactions and the value it leaves. -/

namespace Sys2Proof.Machine

/-! ### Totality -/

theorem exec_completes (i : Instr) (s : State) : Completes (exec i s) := by
  cases i
  all_goals exact ⟨_, rfl⟩

theorem step_completes (s : State) : Completes (step s) := by
  cases h : s.halted with
  | true => exact ⟨s, haltedStepDoesNothing s h⟩
  | false =>
    rw [step_of_not_halted h]
    exact exec_completes _ _

/-! ### Ports -/

/-- The null device answers 0 (R66). -/
theorem State.portAnswer_of_absent {s : State} {p : Byte} (h : s.ioMap.kindAt p = .absent) :
    s.portAnswer p = 0#8 := by
  rw [State.portAnswer, h]

/-! ### The obligations -/

/-- Settles O8: while halted a step answers its own state, else what an instruction answers; `Fault` has no
constructor. -/
theorem stepAlwaysAnswersNext : Obligations.StepAlwaysAnswersNext :=
  ⟨step_completes, exec_completes, ⟨fun r => nomatch r⟩⟩

/-- Settles O12: the core's part of the reset state is that at power-on (D11, D12), and nothing else is
written. -/
theorem resetAndSetPcInputs : Obligations.ResetAndSetPcInputs := by
  obtain ⟨hreg, hpc, hsp, -, hstatus, hcycles, hinte, hhalted⟩ := powerOnState
  exact fun s a => ⟨⟨hreg, hstatus, hpc, hsp, hcycles, hinte, hhalted, rfl, rfl, rfl, rfl, rfl, rfl⟩, rfl⟩

/-- Settles O58: one I/O read, whose answer A holds (D24). -/
theorem inReadsPort : Obligations.InReadsPort := by
  refine ⟨fun _ => ⟨rfl, rfl⟩, fun s p => ?_⟩
  obtain ⟨hkeeps, hran⟩ := exec_keeps_and_ran (.inp p) rfl (s.busSide_ioRead p) rfl
  have ha : (((s.ioRead p).2.setReg .a (s.ioRead p).1).advance (.inp p)).reg .a = s.portAnswer p := by simp
  exact ⟨_, rfl, ha, hkeeps, hran, fun h => ha.trans (State.portAnswer_of_absent h)⟩

/-- Settles O59: one I/O write, which an attached device records (D24). -/
theorem outWritesPort : Obligations.OutWritesPort := by
  intro s p
  exact ⟨_, rfl, s.ioWrite_ioOut p (s.reg .a),
    exec_keeps_and_ran (.out p) rfl (s.busSide_ioWrite p (s.reg .a)) rfl⟩

/-- Settles O60: no transaction is made, and EI, DI and HLT write their own bit (D11, D12). -/
theorem controlInstructionsComplete : Obligations.ControlInstructionsComplete := by
  refine fun s => ⟨?_, ?_, ?_, fun n => ?_, ?_⟩
  · exact ⟨_, rfl, rfl, exec_keeps_and_ran .ei (es := []) rfl rfl rfl⟩
  · exact ⟨_, rfl, rfl, exec_keeps_and_ran .di (es := []) rfl rfl rfl⟩
  · exact ⟨_, rfl, exec_keeps_and_ran .nop (es := []) rfl rfl rfl⟩
  · exact ⟨_, rfl, exec_keeps_and_ran (.nopDup n) (es := []) rfl rfl rfl⟩
  · exact ⟨_, rfl, rfl, exec_keeps_and_ran .hlt (es := []) rfl rfl rfl⟩

end Sys2Proof.Machine
end
